-- ==== Sys2Proof/Word.lean ====
section
/-! DEFINITION. The data the block works on: bytes, 16-bit identifiers, byte sequences and the Message
(00_scope.md R10, R11; 10_state.md R24). Every value is unsigned; lengths are natural numbers. -/

namespace Sys2Proof

/-- A byte (R10). -/
abbrev Byte := BitVec 8

/-- A 16-bit word, the width of `cobId` (R24). -/
abbrev Half := BitVec 16

/-- A byte sequence; index 0 is the oldest byte (R10). -/
abbrev Bytes := List Byte

/-- A Message, the unit exchanged with the host stack (10_state.md R24): 16-bit identifier, 1-bit remote flag,
8-bit length, 8 payload bytes. The fields are separate, never packed in a word (30_encoding.md R94). -/
structure Message where
  cobId : Half
  rtr   : Bool
  len   : Byte
  data  : Vector Byte 8
  deriving DecidableEq, Repr, Inhabited

end Sys2Proof
end

