-- ==== Sys2Proof/Config.lean ====
section
/-! DEFINITION. The constants of the document, the parameters it leaves open, and the free values
(00_scope.md R7, R8; 93_implementation_defined.md U5, U9, U15). -/

namespace Sys2Proof

/-! ## Constants (R7, hard-wired by R33) -/

/-- `TAG_DATA` (R7, R83). -/
def Config.tagData : Byte := 0xE1
/-- `TAG_REMOTE` (R7, R83). -/
def Config.tagRemote : Byte := 0xD3
/-- `MAX_DLEN` (R7): largest payload length of a Message. -/
def Config.maxDlen : Nat := 8
/-- `HDR_DATA` (R7): bytes of a data frame before the payload. -/
def Config.hdrData : Nat := 4
/-- `LEN_REMOTE` (R7): total bytes of a remote frame. -/
def Config.lenRemote : Nat := 3
/-- `MIN_DECODE` (R7): a shorter buffer always decodes Incomplete. -/
def Config.minDecode : Nat := 3
/-- `WR_TIMEOUT_MS` (R7, R254). -/
def Config.wrTimeoutMs : Nat := 1000
/-- `RD_TIMEOUT_MS` (R7, R254). -/
def Config.rdTimeoutMs : Nat := 500
/-- `RX_READ_MAX` (R7): most bytes one transport read asks for. -/
def Config.rxReadMax : Nat := 3000
/-- `BAUD_TOKEN` (R7): the only baud token OPEN accepts, the literal string 1M. -/
def Config.baudToken : List Char := ['1', 'M']
/-- `STATUS_OK` (R7, R31). -/
def Config.statusOk : Byte := 0
/-- `STATUS_FAIL` (R8, R31, D11). -/
def Config.statusFail : Byte := 1

/-! ## Parameters of the instance -/

/-- `RBUF_CAP` (R8, D2, U7): a capacity of at least 259 bytes, or no bound at all. The type carries the
constraint, so a model with a smaller capacity cannot be written. -/
inductive RbufCap where
  | finite (n : Nat) (h : 259 ≤ n)
  | unbounded
  deriving DecidableEq, Repr

/-- `BAUD_DEFAULT` (R8, R218, D19): the rate configured at open, whose value no document gives. Free (log 5). -/
opaque Config.baudDefault : Nat
/-- `T_TXBUF` (R8, D19): the transport's transmit buffer size, read by no rule. Free (log 5). -/
opaque Config.txBufSize : Nat
/-- `T_RXBUF` (R8, D19): the transport's receive buffer size, read by no rule. Free (log 5). -/
opaque Config.rxBufSize : Nat

/-! ## What the environment chooses -/

/-- What can happen on the serial line besides bytes arriving. Each leaves the pending bytes as the
environment chooses, so the stream contract of R198 no longer holds from there (log 12). -/
inductive LineEvent where
  /-- A communication error (R203, D27): the pending or next bounded call answers "no progress". -/
  | commError (left : Bytes)
  /-- The transport's own receive buffer overflowed (U22): bytes are lost without notice. -/
  | overflow (left : Bytes)
  deriving DecidableEq, Repr

/-- One draw (R15): what the environment decides about one transport call. Each primitive reads the parts
that concern it. The counts are limits, cut down to the range the primitive's rule gives (R195, R197, log 3). -/
structure Draw where
  /-- The bytes the device receives from the peer up to this call's answer (R201). -/
  arrivals : Bytes := []
  /-- How many bytes accepted for sending leave the transport for the peer meanwhile (R194, R202). -/
  drained : Nat := 0
  /-- An event on the line meanwhile. -/
  event : Option LineEvent := none
  /-- The 1 ms ticks that pass before the transport reports completion (R255). -/
  ticks : Nat := 0
  /-- `T.open`: the device opens (R191). `T.waitReadable`: readability is signalled (R196). -/
  accept : Bool := false
  /-- `T.write`: how many bytes are taken (R195). `T.read`: how many bytes are handed over (R197). -/
  moves : Nat := 0
  deriving DecidableEq, Repr, Inhabited

/-- The environment's answer number `n` after the answers already decided: unconstrained (R190, R202, log 2). -/
opaque Config.freeDraw : Nat → Draw

/-- What ENCODE gives outside its precondition, where it "has no defined result" (R111, log 8). -/
opaque Config.freeEncode : Message → Bytes

end Sys2Proof
end

