-- ==== Sys2Proof/Syntax.lean ====
section
/-! DEFINITION. The instructions: one constructor of `Instr` for each row of opcode_table.json
(30_encoding.md R92, R97), and the verdicts of DECODE (00_scope.md R13). -/

namespace Sys2Proof

/-- Why a buffer head can start no frame (R13, R118, R124). -/
inductive Reason where
  | badTag
  | badLen
  deriving DecidableEq, Repr

/-- The answer of DECODE (R13): `complete m k` carries the message and the bytes consumed. -/
inductive Verdict where
  | incomplete
  | invalid (r : Reason)
  | complete (m : Message) (consumed : Nat)
  deriving DecidableEq, Repr

/-- What the selector `CMD` names (30_encoding.md R92). -/
inductive Command where
  | openSession
  | closeSession
  | send
  | recv
  | chbaud
  | reserved (code : BitVec 3)
  deriving DecidableEq, Repr

/-- The 18 rows of the opcode table. The frames carry the fields decoded from the wire; the host commands
take their operands from the host's port; the transport primitives carry their arguments. -/
inductive Instr where
  /-- DATA (R81, R119). -/
  | data (cobId : Half) (len : Byte) (payload : Bytes)
  /-- REMOTE (R82, R123). -/
  | remote (cobId : Half)
  /-- BADTAG (R87, R124): any other first byte. -/
  | badTag (tag : Byte)
  /-- ENCODE of TXMSG (R110, R111). -/
  | encode
  /-- DECODE of the residual buffer (R110, R115). -/
  | decode
  /-- OPEN (R211). -/
  | openCmd
  /-- CLOSE (R219). -/
  | closeCmd
  /-- SEND (R140). -/
  | send
  /-- RECV (R160). -/
  | recv
  /-- CHBAUD (R222). -/
  | chbaud
  /-- CMD_RESERVED (R226): selector 0, 6 or 7. -/
  | cmdReserved (code : BitVec 3)
  /-- T.open (R191). -/
  | tOpen (deviceId baudRate : Nat)
  /-- T.close (R193). -/
  | tClose
  /-- T.purge (R194). -/
  | tPurge
  /-- T.write (R195). -/
  | tWrite (bytes : Bytes) (timeoutMs : Nat)
  /-- T.waitReadable (R196). -/
  | tWaitReadable (timeoutMs : Nat)
  /-- T.available (R199). -/
  | tAvailable
  /-- T.read (R197). -/
  | tRead (maxBytes timeoutMs : Nat)
  deriving DecidableEq, Repr

/-- The two encodings of the table (R97): a value of the 3-bit selector `CMD`, or bytes at the frame cursor.
Codec functions and transport primitives are calls and have neither. -/
inductive CodeWord where
  | selector (code : BitVec 3)
  | atCursor (bytes : Bytes)
  deriving DecidableEq, Repr

/-- Why bytes at the frame cursor give no instruction. -/
inductive Reject where
  /-- Not all bytes of the frame are there yet (R116, R117). -/
  | incomplete
  /-- A data frame that declares more than 8 payload bytes (R118). -/
  | badLen
  deriving DecidableEq, Repr

end Sys2Proof
end

