-- ==== Sys2Proof/WellFormed.lean ====
section
/-! DEFINITION. Which terms of `Instr` are instructions of the table: the ranges of their fields. -/

namespace Sys2Proof

/-- The fields of an instruction are in the ranges the table and the rules give them. -/
def Instr.wf : Instr → Bool
  -- R81: len is 0..8 in a valid frame and counts the payload bytes
  | .data _ len payload => len.toNat ≤ Config.maxDlen && payload.length == len.toNat
  | .remote _ => true
  -- R87: any first byte but the two tags
  | .badTag tag => tag != Config.tagData && tag != Config.tagRemote
  | .encode => true
  | .decode => true
  | .openCmd => true
  | .closeCmd => true
  | .send => true
  | .recv => true
  | .chbaud => true
  -- R92: the reserved selector values
  | .cmdReserved code => code == 0 || code == 6 || code == 7
  | .tOpen _ _ => true
  | .tClose => true
  | .tPurge => true
  -- R59: one whole frame, 3 to 12 bytes, under the write bound of R254
  | .tWrite bytes timeoutMs =>
    3 ≤ bytes.length && bytes.length ≤ 12 && timeoutMs == Config.wrTimeoutMs
  | .tWaitReadable timeoutMs => timeoutMs == Config.rdTimeoutMs
  | .tAvailable => true
  -- R167: at most RX_READ_MAX bytes under the read bound of R254
  | .tRead maxBytes timeoutMs => maxBytes ≤ Config.rxReadMax && timeoutMs == Config.rdTimeoutMs

/-- What the table gives a bit pattern: the frames, BADTAG and the command selectors (R97). -/
def Instr.hasPattern : Instr → Bool
  | .data _ _ _ | .remote _ | .badTag _ => true
  | .openCmd | .closeCmd | .send | .recv | .chbaud | .cmdReserved _ => true
  | .encode | .decode => false
  | .tOpen _ _ | .tClose | .tPurge | .tWrite _ _ | .tWaitReadable _ | .tAvailable | .tRead _ _ => false

end Sys2Proof
end

