-- ==== Sys2Proof/Decode.lean ====
section
/-! DEFINITION. The frame codec's two functions (40_framecodec.md), the decoder from code words to instructions,
and after it the encoder (30_encoding.md R80 to R92). All are total; the decoder refuses by name. -/

namespace Sys2Proof

/-! ## Fields -/

/-- Byte `i` of a sequence. DECODE only asks for indices below the length (R51, R121). -/
def byteAt (b : Bytes) (i : Nat) : Byte := b.getD i 0

/-- `idHigh = (cobId >> 8) & 0xFF` (R85, R114). -/
def idHigh (c : Half) : Byte := ((c >>> 8) &&& 0xFF#16).setWidth 8

/-- `idLow = cobId & 0xFF` (R85, R114). -/
def idLow (c : Half) : Byte := (c &&& 0xFF#16).setWidth 8

/-- `cobId = (zext_16(idHigh) << 8) | zext_16(idLow)` (R85): most significant byte first (R55). -/
def joinId (hi lo : Byte) : Half := (hi.setWidth 16 <<< 8) ||| lo.setWidth 16

/-- Eight payload bytes, zero behind the end of `l` (R86, R120). -/
def pad8 (l : Bytes) : Vector Byte 8 :=
  #v[byteAt l 0, byteAt l 1, byteAt l 2, byteAt l 3, byteAt l 4, byteAt l 5, byteAt l 6, byteAt l 7]

/-! ## Messages -/

/-- `ZERO_MSG` (R27). -/
def zeroMsg : Message := ⟨0, false, 0, pad8 []⟩

/-- The message of a data frame with these fields; every byte behind the payload is zero (R119, R120). -/
def dataMessage (cobId : Half) (len : Byte) (payload : Bytes) : Message :=
  ⟨cobId, false, len, pad8 (payload.take len.toNat)⟩

/-- The message of a remote frame (R123, R120). -/
def remoteMessage (cobId : Half) : Message := ⟨cobId, true, 0, pad8 []⟩

/-- The invariant of a Message (R24) on the fields that matter: a data message has `len ≤ 8`. ENCODE is
defined exactly for these (R111). -/
def Message.encodable (m : Message) : Bool := m.rtr || m.len.toNat ≤ Config.maxDlen

/-- The payload bytes that are meaningful (R15, R24): `data[0..len)` of a data message, none of a remote one. -/
def Message.payload (m : Message) : Bytes := if m.rtr then [] else m.data.toList.take m.len.toNat

/-- Equality on meaningful fields, `m1 ≈ m2` (R24). -/
def Message.sameMeaning (m₁ m₂ : Message) : Bool :=
  m₁.cobId == m₂.cobId && m₁.rtr == m₂.rtr && (m₁.rtr || (m₁.len == m₂.len && m₁.payload == m₂.payload))

/-- A canonical Message (R24): encodable, and every field that is not meaningful is zero. -/
def Message.canonical (m : Message) : Bool :=
  m.encodable && m.data == pad8 m.payload && (!m.rtr || m.len == 0)

/-! ## ENCODE -/

/-- ENCODE within its precondition: a data frame (R112) or a remote frame (R113). -/
def encodeFrame (m : Message) : Bytes :=
  if m.rtr then [Config.tagRemote, idHigh m.cobId, idLow m.cobId]
  else [Config.tagData, m.len, idHigh m.cobId, idLow m.cobId] ++ m.data.toList.take m.len.toNat

/-- ENCODE of any Message. Outside the precondition of R111 it has no defined result: a free value (log 8). -/
def encodeMessage (m : Message) : Bytes :=
  if m.encodable then encodeFrame m else Config.freeEncode m

/-! ## DECODE -/

/-- DECODE (R115), its tests in the order the rule gives. -/
def decodeFrame (b : Bytes) : Verdict :=
  if b.length < Config.minDecode then .incomplete
  else if byteAt b 0 = Config.tagData then
    if b.length = 3 ∨ b.length - 4 < (byteAt b 1).toNat then .incomplete
    else if Config.maxDlen < (byteAt b 1).toNat then .invalid .badLen
    else .complete
      (dataMessage (joinId (byteAt b 2) (byteAt b 3)) (byteAt b 1) ((b.drop 4).take (byteAt b 1).toNat))
      (Config.hdrData + (byteAt b 1).toNat)
  else if byteAt b 0 = Config.tagRemote then
    .complete (remoteMessage (joinId (byteAt b 1) (byteAt b 2))) Config.lenRemote
  else .invalid .badTag

/-! ## The decoder of instructions -/

/-- The command a selector value names (R92). -/
def selectCommand (code : BitVec 3) : Command :=
  if code = 1#3 then .openSession
  else if code = 2#3 then .closeSession
  else if code = 3#3 then .send
  else if code = 4#3 then .recv
  else if code = 5#3 then .chbaud
  else .reserved code

/-- The instruction of a command. -/
def Command.instr : Command → Instr
  | .openSession => .openCmd
  | .closeSession => .closeCmd
  | .send => .send
  | .recv => .recv
  | .chbaud => .chbaud
  | .reserved code => .cmdReserved code

/-- The instruction at the frame cursor (R97): which frame, or BADTAG, the bytes start with. -/
def decodeCursor (b : Bytes) : Except Reject Instr :=
  match decodeFrame b with
  | .incomplete => .error .incomplete
  | .invalid .badLen => .error .badLen
  | .invalid .badTag => .ok (.badTag (byteAt b 0))
  | .complete m k =>
    if m.rtr then .ok (.remote m.cobId)
    else .ok (.data m.cobId m.len ((b.take k).drop Config.hdrData))

/-- The decoder, total on every code word. -/
def decode : CodeWord → Except Reject Instr
  | .selector code => .ok (selectCommand code).instr
  | .atCursor bytes => decodeCursor bytes

/-! ## The encoder -/

/-- The selector value of a command (R92). -/
def Command.code : Command → BitVec 3
  | .openSession => 1#3
  | .closeSession => 2#3
  | .send => 3#3
  | .recv => 4#3
  | .chbaud => 5#3
  | .reserved code => code

/-- The code word of an instruction, from the tables R81, R82, R87, R92; `none` where the table gives no bit
pattern (R97). BADTAG is one byte; the decoder sees it once three bytes are there (R116). -/
def encode : Instr → Option CodeWord
  | .data cobId len payload =>
    some (.atCursor ([Config.tagData, len, idHigh cobId, idLow cobId] ++ payload))
  | .remote cobId => some (.atCursor [Config.tagRemote, idHigh cobId, idLow cobId])
  | .badTag tag => some (.atCursor [tag])
  | .encode => none
  | .decode => none
  | .openCmd => some (.selector Command.openSession.code)
  | .closeCmd => some (.selector Command.closeSession.code)
  | .send => some (.selector Command.send.code)
  | .recv => some (.selector Command.recv.code)
  | .chbaud => some (.selector Command.chbaud.code)
  | .cmdReserved code => some (.selector code)
  | .tOpen _ _ => none
  | .tClose => none
  | .tPurge => none
  | .tWrite _ _ => none
  | .tWaitReadable _ => none
  | .tAvailable => none
  | .tRead _ _ => none

/-- More bytes behind a code word: what follows the instruction at the frame cursor. A selector has nothing
behind it. -/
def CodeWord.followedBy (w : CodeWord) (rest : Bytes) : CodeWord :=
  match w with
  | .selector code => .selector code
  | .atCursor bytes => .atCursor (bytes ++ rest)

/-! ## Words numbered as the opcode table numbers them -/

/-- The first twelve bytes (the longest frame, R81) of the word `w` of `nbits` bits: the first byte is bits 7:0,
and every bit from `nbits` on is zero. -/
def tableBytes (nbits w : Nat) : Bytes :=
  (List.range 12).map fun i => BitVec.ofNat 8 ((w % 2 ^ nbits) >>> (8 * i))

/-- Which of the two encodings a table word is read in: a first byte below 8 is a selector value, every other
first byte stands at the frame cursor (log 11). -/
def tableWord (nbits w : Nat) : CodeWord :=
  let b := tableBytes nbits w
  if (byteAt b 0).toNat < 8 then .selector ((byteAt b 0).setWidth 3) else .atCursor b

/-- The instruction the decoder reads from a table word; `none` where it refuses. -/
def decodeTableWord (nbits w : Nat) : Option Instr :=
  match decode (tableWord nbits w) with
  | .ok i => some i
  | .error _ => none

end Sys2Proof
end

