-- ==== Sys2Proof/Machine/State.lean ====
section
/-! DEFINITION. The state of one block instance and of its environment (10_state.md R20 to R38; 43_transportport.md
R201), the reasons a step can stop, and the state after reset (R38). Plain data throughout. -/

namespace Sys2Proof.Machine

/-- `sess` (R21). -/
inductive Session where
  | closed
  | opened
  deriving DecidableEq, Repr

/-- `fsm` (R29): the state of the command state machine. -/
inductive Fsm where
  | idle
  | sEncode
  | sWrite
  | rDecode1
  | rWait
  | rAvail
  | rRead
  | rDecode2
  | oOpening
  | cClosing
  deriving DecidableEq, Repr

/-- The parity of the serial format; the document knows one (R191). -/
inductive Parity where
  | noParity
  deriving DecidableEq, Repr

/-- What `T.open` configures on the device (R191, R274). -/
structure SerialConfig where
  deviceId : Nat
  baudRate : Nat
  dataBits : Nat
  parity : Parity
  stopBits : Nat
  abortOnError : Bool
  txBuf : Nat
  rxBuf : Nat
  deriving DecidableEq, Repr

/-- `dev` (R36 (c)): whether the serial device is open, and how it is configured then. -/
inductive Dev where
  | closed
  | opened (cfg : SerialConfig)
  deriving DecidableEq, Repr

/-- The environment record (R36, R201): the serial device and the line behind it. -/
@[ext]
structure Env where
  /-- `dev` (R36 (c)). -/
  dev : Dev
  /-- `rxq` (R36 (a)): received by the device, not yet read by the block. -/
  rxq : Bytes
  /-- `wire_tx` (R36 (b)): every byte accepted from `T.write`, in order. -/
  wireTx : Bytes
  /-- Bytes accepted for sending but not yet sent (R194, log 14). -/
  txHeld : Bytes
  /-- A communication error no bounded call has answered for yet (R203, log 12). -/
  commErr : Bool
  /-- The 1 ms ticks that have passed inside transport calls (R255); the block never reads it (R253, log 17). -/
  clock : Nat
  deriving DecidableEq, Repr

/-- What the host presents with a command: the selector and the operands (R92, R25, R32, R211, R222). -/
structure HostPort where
  /-- `CMD` (R32). -/
  cmd : BitVec 3
  /-- `TXMSG` (R25). -/
  txmsg : Message
  /-- `port_ok` of OPEN (R211). -/
  portOk : Bool
  /-- `port` of OPEN (R211). -/
  port : Nat
  /-- `baud_ok` of OPEN (R211). -/
  baudOk : Bool
  /-- The new baud token of CHBAUD, which no rule reads (R222). -/
  newBaud : List Char
  deriving DecidableEq, Repr

/-- One request of the host (log 10). -/
inductive HostReq where
  /-- The host issues a command and waits for its completion: one transaction (R9, R60). -/
  | command (p : HostPort)
  /-- The host starts a command on its state machine; each later step is one transition or tick (R148, R175, R227). -/
  | start (p : HostPort)
  /-- The host issues a command without waiting for the one in progress, which R280 forbids. -/
  | concurrent (p : HostPort)
  /-- Hardware reset (R270, R272). -/
  | reset
  deriving DecidableEq, Repr

/-- A group of bytes removed from the residual buffer (R69): a frame turned into a message, or a dropped byte. -/
inductive Group where
  | frame (bytes : Bytes) (m : Message)
  | dropped (b : Byte)
  deriving DecidableEq, Repr

/-- The history R69 speaks of, read by no command (log 19). -/
structure History where
  /-- `RXALL`: every byte `T.read` has returned since the last successful OPEN. -/
  rxAll : Bytes
  /-- `G1, ..., Gn`: the groups removed since then. -/
  groups : List Group
  deriving DecidableEq, Repr

/-- The value a codec function or a transport primitive hands back when it runs as a step of its own. -/
inductive Answer where
  | none
  | frame (f : Bytes)
  | verdict (v : Verdict)
  | openResult (ok : Bool)
  | closeDone
  | purgeDone
  | written (k : Nat)
  | readable (ready : Bool)
  | count (n : Nat)
  | chunk (c : Bytes)
  deriving DecidableEq, Repr

/-- Why a command ended without success (60_exceptions.md R241). Labels for the reader: the host sees only
`STATUS` (R13, R242), and State keeps none of them. -/
inductive Cause where
  | alreadyOpen
  | config
  | transportOpen
  | notOpen
  | badLen
  | shortWrite (k : Nat)
  | noDataTimeout
  | noDataEmpty
  | noDataZeroRead
  | noDataIncomplete
  | noDataInvalid (r : Reason)
  | unsupported
  | reservedCmd
  deriving DecidableEq, Repr

/-- The state of the machine. -/
@[ext]
structure State where
  /-- `RBUF_CAP` (R8): a parameter of the instance that no step changes (log 4). -/
  cap : RbufCap
  /-- `sess` (R21). -/
  sess : Session
  /-- `rbuf` (R22); `rlen` is its length. -/
  rbuf : Bytes
  /-- `RXMSG` (R26). -/
  rxmsg : Message
  /-- `STATUS` (R31). -/
  status : Byte
  /-- `fsm` (R29). -/
  fsm : Fsm
  /-- `wr_timer` (R30): `none` is idle, not running. -/
  wrTimer : Option Nat
  /-- `rd_timer` (R30): `none` is idle, not running. -/
  rdTimer : Option Nat
  /-- The host-owned inputs: `CMD`, `TXMSG` and the operands (R25, R32, R211). -/
  host : HostPort
  /-- The environment (R36, R201). -/
  env : Env
  /-- The transport call in progress, `none` between calls (log 1). -/
  call : Option Draw
  /-- The environment's answers already decided, oldest first (log 2). -/
  draws : List Draw
  /-- How many free answers have been taken after those (log 2). -/
  drawCount : Nat
  /-- The host's requests not yet issued, oldest first (log 10). -/
  pending : List HostReq
  /-- What the last codec function or primitive run as a step of its own handed back (log 9). -/
  result : Answer
  /-- `RXALL` and the groups of R69 (log 19). -/
  hist : History
  deriving DecidableEq, Repr

/-- How a command ended: with success (`cause = none`) or with a cause of R241, and the state it left. -/
structure Finished where
  cause : Option Cause
  state : State
  deriving DecidableEq, Repr

/-- What the machine does next, as fetched from the state (Machine/Fetch.lean). -/
inductive Activity where
  /-- No request and no command in progress: nothing happens (R6, R260). -/
  | rest
  /-- Hardware reset, the request already taken off the list. -/
  | resetNow (s : State)
  /-- A command issued as one transaction, its inputs loaded. -/
  | run (i : Instr) (s : State)
  /-- A command started on its state machine, its inputs loaded. -/
  | begin (c : Command) (s : State)
  /-- A command in progress goes on. -/
  | proceed
  deriving DecidableEq, Repr

/-- Faults. There are none: no cause of R241 is a fault, the block has no state that means failed, and no
command ends abruptly (R246, R261, log 26). -/
inductive Fault : Type
  deriving DecidableEq, Repr

/-- Why a step has no meaning. -/
inductive Refusal where
  /-- Raised by `exec` for an instruction that has no meaning yet. Safe: nothing follows from such a step. -/
  | notModelled (mnemonic : String)
  /-- Raised by the six host commands when another command is in progress (R280, U4: refuse). Safe: nothing
  follows from such a step. -/
  | commandInProgress
  deriving DecidableEq, Repr

/-- The host's inputs before the host has written them (R38 leaves them unspecified; log 6). -/
def HostPort.initial : HostPort := ⟨0, zeroMsg, false, 0, false, []⟩

/-- The environment at reset: the device closed (R38); the rest is the model's choice (log 7). -/
def Env.initial : Env := ⟨.closed, [], [], [], false, 0⟩

/-- The state after reset (R38, R270). -/
def State.reset : State where
  cap := .finite 4096 (by decide)
  sess := .closed
  rbuf := []
  rxmsg := zeroMsg
  status := Config.statusOk
  fsm := .idle
  wrTimer := none
  rdTimer := none
  host := HostPort.initial
  env := Env.initial
  call := none
  draws := []
  drawCount := 0
  pending := []
  result := .none
  hist := ⟨[], []⟩

end Sys2Proof.Machine
end

