-- ==== Sys2Proof/Machine/Flags.lean ====
section
/-! DEFINITION. The one result register. The block has no condition codes and no sticky flags (10_state.md R34);
what a command reports is `STATUS` (R31, R93). -/

namespace Sys2Proof.Machine

/-- The status value of a command's outcome: 0 for success, 1 for everything else (R31, R93). -/
def statusOf (cause : Option Cause) : Byte :=
  match cause with
  | none => Config.statusOk
  | some _ => Config.statusFail

/-- `STATUS` receives the outcome of the command that ends (R31). -/
def State.report (s : State) (cause : Option Cause) : State := { s with status := statusOf cause }

end Sys2Proof.Machine
end

