-- ==== Sys2Proof/Machine/Ops.lean ====
section
/-! DEFINITION. The named operations on State that the meanings share: the residual buffer (20_memory.md R51 to
R54), the environment's draws, how a command ends (`return` and `raise` of 00_scope.md R12, 60_exceptions.md R246),
and hardware reset (R270). -/

namespace Sys2Proof.Machine

/-! ## The residual buffer -/

/-- `rlen` (R22). -/
def State.rlen (s : State) : Nat := s.rbuf.length

/-- The canonical form of the block's one memory: `rlen ≤ RBUF_CAP` (R20). Any byte sequence within the capacity
is a buffer, and equal buffers are equal lists. -/
def Memory.wf (cap : RbufCap) (rbuf : Bytes) : Bool :=
  match cap with
  | .finite n _ => rbuf.length ≤ n
  | .unbounded => true

/-- `min(RX_READ_MAX, RBUF_CAP - rlen)` (R54, R167). -/
def readRequest (cap : RbufCap) (rlen : Nat) : Nat :=
  match cap with
  | .finite n _ => min Config.rxReadMax (n - rlen)
  | .unbounded => Config.rxReadMax

/-- `RbufAppend(c)` (R52): a chunk that `T.read` returned goes behind every byte already there. -/
def rbufAppend (c : Bytes) (s : State) : State :=
  { s with rbuf := s.rbuf ++ c, hist := { s.hist with rxAll := s.hist.rxAll ++ c } }

/-- `RbufTrim(k)` (R53): the `k` oldest bytes leave the buffer. -/
def rbufTrim (k : Nat) (s : State) : State := { s with rbuf := s.rbuf.drop k }

/-- The groups removed from the buffer grow by `gs` (R69). -/
def State.recordGroups (s : State) (gs : List Group) : State :=
  { s with hist := { s.hist with groups := s.hist.groups ++ gs } }

/-- Resynchronisation (R170): exactly one leading byte leaves the buffer. -/
def dropOne (s : State) : State :=
  rbufTrim 1 (s.recordGroups ((s.rbuf.take 1).map .dropped))

/-! ## The environment's answers -/

/-- The next draw and the state without it: the oldest answer already decided, else a free one (log 2). -/
def State.nextDraw (s : State) : Draw × State :=
  match s.draws with
  | d :: ds => (d, { s with draws := ds })
  | [] => (Config.freeDraw s.drawCount, { s with drawCount := s.drawCount + 1 })

/-! ## How a command ends -/

/-- The state machine returns to `IDLE`, no timer runs, no transport call is in progress (R29, R30, R246). -/
def State.toIdle (s : State) : State :=
  { s with fsm := .idle, wrTimer := none, rdTimer := none, call := none }

/-- A command ends: `STATUS` is written and control returns to the host. -/
def finish (cause : Option Cause) (s : State) : Finished := ⟨cause, (s.toIdle).report cause⟩

/-- `return` with success (R12). -/
def succeed (s : State) : Finished := finish none s

/-- `raise <Cause>` (R12, R246): the one way a command ends without success. No trap, no handler, nothing
saved: `STATUS ← 1`, `fsm ← IDLE`, back to the host. -/
def raise (c : Cause) (s : State) : Finished := finish (some c) s

/-- `none(cause)` of RECV (R160, R173): `RXMSG ← ZERO_MSG` and `raise`. -/
def noMessage (c : Cause) (s : State) : Finished := raise c { s with rxmsg := zeroMsg }

/-- `some(m)` of RECV with the trim of the decoded frame (R160, R163): the `k` bytes of the frame leave the buffer
and the message is presented, together (R60). -/
def deliver (m : Message) (k : Nat) (s : State) : Finished :=
  succeed { rbufTrim k (s.recordGroups [.frame (s.rbuf.take k) m]) with rxmsg := m }

/-- A host command needs the state machine idle; a command started while another runs is refused (R280). -/
def whenIdle (f : State → Finished) (s : State) : Host.Outcome State Fault Refusal :=
  if s.fsm = .idle then .next (f s).state else .refused .commandInProgress

/-! ## Hardware reset -/

/-- The block's registers at reset (R38, R270); the environment and the host's inputs are not reset by it. -/
def resetBlock (s : State) : State :=
  { s.toIdle with sess := .closed, rbuf := [], rxmsg := zeroMsg, status := Config.statusOk }

end Sys2Proof.Machine
end

