-- ==== Sys2Proof/Machine/Operands.lean ====
section
/-! DEFINITION. Where the instructions take their operands from: the host-owned inputs (10_state.md R25, R32;
44_driverfacade_commands.md R211) and the state of the buffer. -/

namespace Sys2Proof.Machine

/-- `TXMSG` (R25): read by SEND and ENCODE, written by the host only. -/
def State.txmsg (s : State) : Message := s.host.txmsg

/-- `CMD` (R32): the selector of the command. -/
def State.cmd (s : State) : BitVec 3 := s.host.cmd

/-- `baud_ok` of OPEN (R211): the baud token equals the literal string 1M (R212, R218). -/
def baudOkOf (token : List Char) : Bool := token == Config.baudToken

/-- The validation of OPEN (R211 step 2): the baud token and the port together. -/
def State.openOperandsOk (s : State) : Bool := s.host.baudOk && s.host.portOk

/-- `TXMSG` meets the invariant a data message must meet before it is encoded (R142). -/
def State.sendOperandOk (s : State) : Bool := s.txmsg.encodable

/-- The size of the read of RECV step 4 (R167). -/
def State.readRequest (s : State) : Nat := Machine.readRequest s.cap s.rlen

/-- The host's inputs are loaded when it issues a request, and the request leaves the list (R6, R32, log 10). -/
def State.load (s : State) (p : HostPort) (rest : List HostReq) : State :=
  { s with host := p, pending := rest }

end Sys2Proof.Machine
end

