-- ==== Sys2Proof/Machine/Transport.lean ====
section
/-! DEFINITION. The seven transport primitives (43_transportport.md): first what each does to the environment for
one draw, then the calls the commands make, then the meanings of the seven table rows. -/

namespace Sys2Proof.Machine

/-! ## The line while a call is in progress -/

/-- `ms` ticks of 1 ms pass (R255). -/
def Env.pass (ms : Nat) (e : Env) : Env := { e with clock := e.clock + ms }

/-- What the peer and the line do up to a call's answer (R201, R203): bytes arrive and held bytes leave while the
device is open; bytes sent while it is closed are lost. On a communication error or an overflow the bytes held for
sending stay held but for those that leave (DESIGN CHOICE, log 12). -/
def Env.advance (d : Draw) (e : Env) : Env :=
  match e.dev with
  | .closed => e
  | .opened _ =>
    match d.event with
    | none => { e with rxq := e.rxq ++ d.arrivals, txHeld := e.txHeld.drop d.drained }
    | some (.commError left) => { e with rxq := left, txHeld := e.txHeld.drop d.drained, commErr := true }
    | some (.overflow left) => { e with rxq := left, txHeld := e.txHeld.drop d.drained }

/-! ## What each primitive does to the environment -/

/-- `T.purge` (R194): received bytes not yet read and accepted bytes not yet sent are discarded. -/
def Env.purge (e : Env) : Env := { e with rxq := [], txHeld := [] }

/-- The configuration `T.open` gives the device (R191): 8 data bits, no parity, one stop bit, abort on
communication error, the transport's buffer sizes. -/
def serialConfig (deviceId baudRate : Nat) : SerialConfig :=
  ⟨deviceId, baudRate, 8, .noParity, 1, true, Config.txBufSize, Config.rxBufSize⟩

/-- `T.open` (R191, R192): on `ok` the device is open and purged; on `fail` nothing is left behind. -/
def Env.openPort (deviceId baudRate : Nat) (d : Draw) (e : Env) : Bool × Env :=
  if d.accept then
    (true, { (e.advance d).purge with dev := .opened (serialConfig deviceId baudRate), commErr := false })
  else (false, e.advance d)

/-- `T.close` (R193): purge, release; it cannot fail. -/
def Env.closePort (e : Env) : Env := { e.purge with dev := .closed, commErr := false }

/-- How many of `n` bytes `T.write` takes: at most `n` (R195), fewer than `n` when the bound has expired (R144, R244)
and on a communication error (R203). -/
def Env.acceptedCount (n : Nat) (expired : Bool) (d : Draw) (e : Env) : Nat :=
  if expired || e.commErr then min d.moves (n - 1) else min d.moves n

/-- `T.write` (R195): the first `k` bytes are accepted, in order. What leaves for the peer during the call is taken from
the bytes held before it, so the accepted ones are all still held when it returns (DESIGN CHOICE, log 14). -/
def Env.write (bytes : Bytes) (expired : Bool) (d : Draw) (e : Env) : Nat × Env :=
  let e₁ := e.advance d
  let k := e₁.acceptedCount bytes.length expired d
  (k, { e₁ with wireTx := e₁.wireTx ++ bytes.take k, txHeld := e₁.txHeld ++ bytes.take k, commErr := false })

/-- `T.waitReadable` (R196): `ready` if the transport signals it before the bound expires; a failure of the wait is
a timeout (D15, R203). Nothing leaves `rxq`. -/
def Env.waitReadable (expired : Bool) (d : Draw) (e : Env) : Bool × Env :=
  let e₁ := e.advance d
  (d.accept && !expired && !e₁.commErr, { e₁ with commErr := false })

/-- `T.available` (R199): the length of `rxq` at the moment of the call. -/
def Env.available (d : Draw) (e : Env) : Nat × Env :=
  ((e.advance d).rxq.length, e.advance d)

/-- How many bytes `T.read` returns: at most `maxBytes` and at most what is pending (R197), none on a
communication error (R203). -/
def Env.chunkSize (maxBytes : Nat) (d : Draw) (e : Env) : Nat :=
  if e.commErr then 0 else min d.moves (min maxBytes e.rxq.length)

/-- `T.read` (R197): a prefix of `rxq` is returned and leaves `rxq`. -/
def Env.read (maxBytes : Nat) (d : Draw) (e : Env) : Bytes × Env :=
  let e₁ := e.advance d
  let n := e₁.chunkSize maxBytes d
  (e₁.rxq.take n, { e₁ with rxq := e₁.rxq.drop n, commErr := false })

/-! ## The calls: a draw is taken, the call's ticks pass, the primitive answers -/

/-- `T.open`, which has no bound (R200). -/
def callOpen (deviceId baudRate : Nat) (s : State) : Bool × State :=
  let p := s.nextDraw
  let r := (p.2.env.pass p.1.ticks).openPort deviceId baudRate p.1
  (r.1, { p.2 with env := r.2 })

/-- `T.close`, whose answer is always success (R193) and which has no bound (R200): of the draw only the ticks matter,
since what arrives meanwhile is discarded (log 21). -/
def callClose (s : State) : State :=
  let p := s.nextDraw
  { p.2 with env := (p.2.env.pass p.1.ticks).closePort }

/-- `T.write` under its bound (R144, R195, R200). -/
def callWrite (bytes : Bytes) (timeoutMs : Nat) (s : State) : Nat × State :=
  let p := s.nextDraw
  let r := (p.2.env.pass (min p.1.ticks timeoutMs)).write bytes (timeoutMs ≤ p.1.ticks) p.1
  (r.1, { p.2 with env := r.2 })

/-- `T.waitReadable` under its bound (R196, R200). -/
def callWait (timeoutMs : Nat) (s : State) : Bool × State :=
  let p := s.nextDraw
  let r := (p.2.env.pass (min p.1.ticks timeoutMs)).waitReadable (timeoutMs ≤ p.1.ticks) p.1
  (r.1, { p.2 with env := r.2 })

/-- `T.available`, which cannot block (R199). -/
def callAvailable (s : State) : Nat × State :=
  let p := s.nextDraw
  let r := p.2.env.available p.1
  (r.1, { p.2 with env := r.2 })

/-- `T.read` under its bound (R197, R200). -/
def callRead (maxBytes timeoutMs : Nat) (s : State) : Bytes × State :=
  let p := s.nextDraw
  let r := (p.2.env.pass (min p.1.ticks timeoutMs)).read maxBytes p.1
  (r.1, { p.2 with env := r.2 })

/-! ## The seven rows -/

/-- What a primitive run as a step of its own hands back (log 9). -/
def State.answer (s : State) (a : Answer) : State := { s with result := a }

/-- T.open (R191, R192). -/
def execTOpen (deviceId baudRate : Nat) (s : State) : Host.Outcome State Fault Refusal :=
  let r := callOpen deviceId baudRate s
  .next (r.2.answer (.openResult r.1))

/-- T.close (R193). -/
def execTClose (s : State) : Host.Outcome State Fault Refusal :=
  .next ((callClose s).answer .closeDone)

/-- T.purge (R194). -/
def execTPurge (s : State) : Host.Outcome State Fault Refusal :=
  .next ({ s with env := s.env.purge }.answer .purgeDone)

/-- T.write (R195). -/
def execTWrite (bytes : Bytes) (timeoutMs : Nat) (s : State) : Host.Outcome State Fault Refusal :=
  let r := callWrite bytes timeoutMs s
  .next (r.2.answer (.written r.1))

/-- T.waitReadable (R196). -/
def execTWaitReadable (timeoutMs : Nat) (s : State) : Host.Outcome State Fault Refusal :=
  let r := callWait timeoutMs s
  .next (r.2.answer (.readable r.1))

/-- T.available (R199). -/
def execTAvailable (s : State) : Host.Outcome State Fault Refusal :=
  let r := callAvailable s
  .next (r.2.answer (.count r.1))

/-- T.read (R197). -/
def execTRead (maxBytes timeoutMs : Nat) (s : State) : Host.Outcome State Fault Refusal :=
  let r := callRead maxBytes timeoutMs s
  .next (r.2.answer (.chunk r.1))

end Sys2Proof.Machine
end

