-- ==== Sys2Proof/Machine/Codec.lean ====
section
/-! DEFINITION. ENCODE and DECODE as steps of their own (40_framecodec.md R110): functions of TXMSG and of the
residual buffer that write no register and call no primitive. Their value is handed back in `result` (log 9). -/

namespace Sys2Proof.Machine

/-- ENCODE of TXMSG (R111 to R114); outside the precondition of R111 a free value (log 8). -/
def execEncode (s : State) : Host.Outcome State Fault Refusal :=
  .next (s.answer (.frame (encodeMessage s.txmsg)))

/-- DECODE of the residual buffer (R115). -/
def execDecode (s : State) : Host.Outcome State Fault Refusal :=
  .next (s.answer (.verdict (decodeFrame s.rbuf)))

end Sys2Proof.Machine
end

