-- ==== Sys2Proof/Machine/Frames.lean ====
section
/-! DEFINITION. What the block does with the frame at the cursor (40_framecodec.md R119, R123, R124;
42_linksession_receive.md R163, R170). RECV runs these on the frame DECODE finds (log 18). -/

namespace Sys2Proof.Machine

/-- DATA (R119): the message is delivered and `4 + len` bytes are consumed. A length byte above 8 spells no frame:
the leading byte is dropped (R118, R170). -/
def execData (cobId : Half) (len : Byte) (payload : Bytes) (s : State) : Host.Outcome State Fault Refusal :=
  if Config.maxDlen < len.toNat then .next (dropOne s)
  else .next (deliver (dataMessage cobId len payload) (Config.hdrData + len.toNat) s).state

/-- REMOTE (R123): the message is delivered and 3 bytes are consumed. -/
def execRemote (cobId : Half) (s : State) : Host.Outcome State Fault Refusal :=
  .next (deliver (remoteMessage cobId) Config.lenRemote s).state

/-- BADTAG (R87, R124, R170): exactly the one byte at the cursor is dropped, whatever it is. -/
def execBadTag (_tag : Byte) (s : State) : Host.Outcome State Fault Refusal :=
  .next (dropOne s)

end Sys2Proof.Machine
end

