-- ==== Sys2Proof/Machine/Commands.lean ====
section
/-! DEFINITION. The host commands as whole transactions (R9, R60): OPEN, CLOSE, CHBAUD and the reserved selectors
(44_driverfacade_commands.md), SEND (41_linksession_send.md), RECV (42_linksession_receive.md). Each answers the
state it leaves and, as a label, the cause it ended with (60_exceptions.md R241). -/

namespace Sys2Proof.Machine

/-! ## OPEN and CLOSE -/

/-- OPEN steps 4 and 5 (R213, R214), after the answer of `T.open`. -/
def afterOpen (ok : Bool) (s : State) : Finished :=
  if ok then succeed { rbufTrim s.rlen s with sess := .opened, hist := ⟨[], []⟩ }
  else raise .transportOpen s

/-- OPEN (R211). -/
def commandOpen (s : State) : Finished :=
  match s.sess with
  | .opened => raise .alreadyOpen s
  | .closed =>
    if s.openOperandsOk then
      let r := callOpen s.host.port Config.baudDefault s
      afterOpen r.1 r.2
    else raise .config s

/-- The session ends: the buffer is emptied and `sess` is CLOSED (R21, R219). -/
def endSession (s : State) : State := { rbufTrim s.rlen s with sess := .closed }

/-- CLOSE after `T.close` has returned (R219). -/
def afterClose (s : State) : Finished := succeed (endSession s)

/-- CLOSE (R219, R220). -/
def commandClose (s : State) : Finished :=
  match s.sess with
  | .opened => afterClose (callClose s)
  | .closed => succeed s

/-! ## SEND -/

/-- SEND step 6 (R145, R146): success exactly when the whole frame was taken. -/
def afterWrite (n k : Nat) (s : State) : Finished :=
  if k = n then succeed s else raise (.shortWrite k) s

/-- SEND (R140). -/
def commandSend (s : State) : Finished :=
  match s.sess with
  | .closed => raise .notOpen s
  | .opened =>
    if s.sendOperandOk then
      let f := encodeMessage s.txmsg
      let r := callWrite f Config.wrTimeoutMs s
      afterWrite f.length r.1 r.2
    else raise .badLen s

/-! ## RECV -/

/-- RECV step 5, the second DECODE and its three outcomes (R169, R170). -/
def decodeAgain (s : State) : Finished :=
  match decodeFrame s.rbuf with
  | .complete m k => deliver m k s
  | .invalid r => noMessage (.noDataInvalid r) (dropOne s)
  | .incomplete => noMessage .noDataIncomplete s

/-- RECV steps 4 and 5 (R166 to R169). -/
def recvRead (s : State) : Finished :=
  let r := callRead s.readRequest Config.rdTimeoutMs s
  if r.1 = [] then noMessage .noDataZeroRead r.2 else decodeAgain (rbufAppend r.1 r.2)

/-- RECV from step 3 (R165). -/
def recvAvail (s : State) : Finished :=
  let r := callAvailable s
  if r.1 = 0 then noMessage .noDataEmpty r.2 else recvRead r.2

/-- RECV from step 2 (R164). -/
def recvWait (s : State) : Finished :=
  let r := callWait Config.rdTimeoutMs s
  if r.1 then recvAvail r.2 else noMessage .noDataTimeout r.2

/-- RECV (R160). -/
def commandRecv (s : State) : Finished :=
  match s.sess with
  | .closed => noMessage .notOpen s
  | .opened =>
    match decodeFrame s.rbuf with
    | .complete m k => deliver m k s
    | .invalid _ => recvWait (dropOne s)
    | .incomplete => recvWait s

/-! ## CHBAUD and the reserved selectors -/

/-- CHBAUD (R222): always fails, reads nothing. -/
def commandChbaud (s : State) : Finished := raise .unsupported s

/-- A reserved selector (R226). -/
def commandReserved (s : State) : Finished := raise .reservedCmd s

/-! ## The rows -/

/-- OPEN (R211). -/
def execOpen (s : State) : Host.Outcome State Fault Refusal := whenIdle commandOpen s

/-- CLOSE (R219). -/
def execClose (s : State) : Host.Outcome State Fault Refusal := whenIdle commandClose s

/-- SEND (R140). -/
def execSend (s : State) : Host.Outcome State Fault Refusal := whenIdle commandSend s

/-- RECV (R160). -/
def execRecv (s : State) : Host.Outcome State Fault Refusal := whenIdle commandRecv s

/-- CHBAUD (R222). -/
def execChbaud (s : State) : Host.Outcome State Fault Refusal := whenIdle commandChbaud s

/-- CMD_RESERVED (R226): the same for each reserved selector value. -/
def execCmdReserved (_code : BitVec 3) (s : State) : Host.Outcome State Fault Refusal :=
  whenIdle commandReserved s

end Sys2Proof.Machine
end

