-- ==== Sys2Proof/Machine/Fsm.lean ====
section
/-! DEFINITION. The same commands on the state machine (10_state.md R29, R30): the start of a command, and one
transition or one 1 ms tick of a command in progress (41 R148, 42 R175, 44 R227, 60 R255); then what a hardware
reset does to a command in progress (70 R272). -/

namespace Sys2Proof.Machine

/-! ## Entering a state -/

/-- A transport call is started: its timer is loaded and its state entered (R148, R175, R227). -/
def beginCall (f : Fsm) (wr rd : Option Nat) (s : State) : State :=
  let p := s.nextDraw
  { p.2 with fsm := f, wrTimer := wr, rdTimer := rd, call := some p.1 }

/-- A state without a transport call in progress is entered. -/
def enter (f : Fsm) (s : State) : State := { s.toIdle with fsm := f }

/-! ## Waiting for a transport call -/

/-- One tick (R255): the running timer and the call's remaining ticks go down by one. -/
def tickOnce (d : Draw) (s : State) : State :=
  { s with
    call := some { d with ticks := d.ticks - 1 }
    wrTimer := s.wrTimer.map (· - 1)
    rdTimer := s.rdTimer.map (· - 1)
    env := s.env.pass 1 }

/-- A step of a state that waits (R255): the call ends when its timer has reached 0 (`ends true`) or the transport
reports completion (`ends false`), whichever comes first; else a tick passes. -/
def whileWaiting (timer : Option Nat) (ends : Bool → Draw → State → State) (s : State) : State :=
  match s.call with
  | none =>
    let p := s.nextDraw
    { p.2 with call := some p.1 }
  | some d =>
    if timer = some 0 then ends true d s
    else if d.ticks = 0 then ends false d s
    else tickOnce d s

/-- `T.write` ends (R148): the count is taken from the transport, less than the whole frame if the bound expired
(R144). -/
def writeEnds (expired : Bool) (d : Draw) (s : State) : State :=
  let f := encodeMessage s.txmsg
  let r := s.env.write f expired d
  (afterWrite f.length r.1 { s with env := r.2 }).state

/-- `T.waitReadable` ends (R175): `R_AVAIL` if readable, else none. -/
def waitEnds (expired : Bool) (d : Draw) (s : State) : State :=
  let r := s.env.waitReadable expired d
  if r.1 then enter .rAvail { s with env := r.2 }
  else (noMessage .noDataTimeout { s with env := r.2 }).state

/-- `T.read` ends (R175): `R_DECODE2` with the chunk appended, or none if the chunk is empty. -/
def readEnds (_expired : Bool) (d : Draw) (s : State) : State :=
  let r := s.env.read s.readRequest d
  if r.1 = [] then (noMessage .noDataZeroRead { s with env := r.2 }).state
  else enter .rDecode2 (rbufAppend r.1 { s with env := r.2 })

/-- `T.open` ends (R227). -/
def openEnds (_expired : Bool) (d : Draw) (s : State) : State :=
  let r := s.env.openPort s.host.port Config.baudDefault d
  (afterOpen r.1 { s with env := r.2 }).state

/-- `T.close` ends (R227). -/
def closeEnds (_expired : Bool) (_d : Draw) (s : State) : State :=
  (afterClose { s with env := s.env.closePort }).state

/-! ## The transitions -/

/-- `S_ENCODE` (R148). -/
def fromSEncode (s : State) : State :=
  match s.sess with
  | .closed => (raise .notOpen s).state
  | .opened =>
    if s.sendOperandOk then beginCall .sWrite (some Config.wrTimeoutMs) none s
    else (raise .badLen s).state

/-- `R_DECODE1` (R175). -/
def fromRDecode1 (s : State) : State :=
  match decodeFrame s.rbuf with
  | .complete m k => (deliver m k s).state
  | .invalid _ => beginCall .rWait none (some Config.rdTimeoutMs) (dropOne s)
  | .incomplete => beginCall .rWait none (some Config.rdTimeoutMs) s

/-- `R_AVAIL` (R175). -/
def fromRAvail (s : State) : State :=
  let r := callAvailable s
  if r.1 = 0 then (noMessage .noDataEmpty r.2).state
  else beginCall .rRead none (some Config.rdTimeoutMs) r.2

/-- One transition or tick of the command in progress (R148, R175, R227, R255); `IDLE` takes none by itself. -/
def transition (s : State) : State :=
  match s.fsm with
  | .idle => s
  | .sEncode => fromSEncode s
  | .sWrite => whileWaiting s.wrTimer writeEnds s
  | .rDecode1 => fromRDecode1 s
  | .rWait => whileWaiting s.rdTimer waitEnds s
  | .rAvail => fromRAvail s
  | .rRead => whileWaiting s.rdTimer readEnds s
  | .rDecode2 => (decodeAgain s).state
  | .oOpening => whileWaiting none openEnds s
  | .cClosing => whileWaiting none closeEnds s

/-- The transition out of `IDLE` when the host starts a command (R148, R175, R227). A command that ends at once
stays in `IDLE`. -/
def startCommand (c : Command) (s : State) : State :=
  match c with
  | .openSession =>
    match s.sess with
    | .opened => (raise .alreadyOpen s).state
    | .closed => if s.openOperandsOk then beginCall .oOpening none none s else (raise .config s).state
  | .closeSession =>
    match s.sess with
    | .opened => beginCall .cClosing none none (endSession s)
    | .closed => (succeed s).state
  | .send => enter .sEncode s
  | .recv =>
    match s.sess with
    | .opened => enter .rDecode1 s
    | .closed => (noMessage .notOpen s).state
  | .chbaud => (commandChbaud s).state
  | .reserved _ => (commandReserved s).state

/-- `n` transitions of the state machine. -/
def transitions : Nat → State → State
  | 0, s => s
  | n + 1, s => transitions n (transition s)

/-! ## Hardware reset in the middle of a command -/

/-- The environment after a transport call the block no longer waits for (R272, log 15): the call ends on the
transport's side, so a frame may be left truncated on the wire and the device may stay open. The block's timer no
longer runs, so no bound expires. -/
def abandonedEnv (s : State) : Env :=
  match s.fsm, s.call with
  | .sWrite, some d => (s.env.write (encodeMessage s.txmsg) false d).2
  | .rWait, some d => (s.env.waitReadable true d).2
  | .rRead, some d => (s.env.read s.readRequest d).2
  | .oOpening, some d => (s.env.openPort s.host.port Config.baudDefault d).2
  | .cClosing, _ => s.env.closePort
  | _, _ => s.env

/-- Hardware reset (R270, R272): the command in progress is abandoned, the block's registers take their reset
values, the transport is not told. -/
def hardReset (s : State) : State := resetBlock { s with env := abandonedEnv s }

end Sys2Proof.Machine
end

