-- ==== Sys2Proof/Machine/Fetch.lean ====
section
/-! DEFINITION. What the machine does next: the host's requests are taken in order, one at a time (20_memory.md
R64); and how a word of the opcode table is placed where it is fetched next. -/

namespace Sys2Proof.Machine

/-- The command a request's selector names (R92). -/
def HostPort.command (p : HostPort) : Command := selectCommand p.cmd

/-- What the machine does next (log 10). Reset acts at any time (R272), at the step in which it is the next request:
one listed behind a started command strikes in that command's first state (DESIGN CHOICE, log 15). A command the host
issues while another is in progress waits for it (R64), except a `concurrent` one, which R280 refuses. -/
def nextActivity (s : State) : Activity :=
  match s.pending with
  | .reset :: rest => .resetNow { s with pending := rest }
  | .concurrent p :: rest => .run p.command.instr (s.load p rest)
  | .command p :: rest => if s.fsm = .idle then .run p.command.instr (s.load p rest) else .proceed
  | .start p :: rest => if s.fsm = .idle then .begin p.command (s.load p rest) else .proceed
  | [] => if s.fsm = .idle then .rest else .proceed

/-- An answer by which the transport makes no progress: timeout, nothing taken, nothing read (R200, R202). -/
def noProgress : Draw := {}

/-- A table word placed where it is fetched next (log 10, log 11). A selector value: the host's next request is
that command. Bytes of a frame: they stand at the frame cursor of an open session and the host's next request is
RECV, which runs the frame; for bytes that are no frame the next wait makes no progress, so that RECV does nothing
more than drop the byte. -/
def placeWord (nbits w : Nat) (s : State) : State :=
  match tableWord nbits w with
  | .selector code =>
    { s with fsm := .idle, pending := .command { s.host with cmd := code } :: s.pending }
  | .atCursor bytes =>
    { s with
      fsm := .idle
      sess := .opened
      rbuf := bytes ++ s.rbuf.drop bytes.length
      draws := if (decodeFrame bytes matches .complete _ _) then s.draws else noProgress :: s.draws
      pending := .command { s.host with cmd := Command.recv.code } :: s.pending }

end Sys2Proof.Machine
end

