-- ==== Sys2Proof/Machine/Dispatch.lean ====
section
/-! DEFINITION. The meaning of each instruction: one arm per constructor of `Instr`. -/

namespace Sys2Proof.Machine

def exec (i : Instr) (s : State) : Host.Outcome State Fault Refusal :=
  match i with
  | .data cobId len payload => Sys2Proof.Machine.execData cobId len payload s
  | .remote cobId => Sys2Proof.Machine.execRemote cobId s
  | .badTag tag => Sys2Proof.Machine.execBadTag tag s
  | .encode => Sys2Proof.Machine.execEncode s
  | .decode => Sys2Proof.Machine.execDecode s
  | .openCmd => Sys2Proof.Machine.execOpen s
  | .closeCmd => Sys2Proof.Machine.execClose s
  | .send => Sys2Proof.Machine.execSend s
  | .recv => Sys2Proof.Machine.execRecv s
  | .chbaud => Sys2Proof.Machine.execChbaud s
  | .cmdReserved code => Sys2Proof.Machine.execCmdReserved code s
  | .tOpen deviceId baudRate => Sys2Proof.Machine.execTOpen deviceId baudRate s
  | .tClose => Sys2Proof.Machine.execTClose s
  | .tPurge => Sys2Proof.Machine.execTPurge s
  | .tWrite bytes timeoutMs => Sys2Proof.Machine.execTWrite bytes timeoutMs s
  | .tWaitReadable timeoutMs => Sys2Proof.Machine.execTWaitReadable timeoutMs s
  | .tAvailable => Sys2Proof.Machine.execTAvailable s
  | .tRead maxBytes timeoutMs => Sys2Proof.Machine.execTRead maxBytes timeoutMs s

end Sys2Proof.Machine
end

