-- ==== Sys2Proof/Machine/Step.lean ====
section
/-! DEFINITION. One step of the machine: the host's next request, or one transition of the command in progress. -/

namespace Sys2Proof.Machine

/-- One step (log 10): a whole command (R9), the start of a command or one transition of it (R148, R175, R227),
hardware reset (R270), or nothing when the host asks for nothing (R6, R260). -/
def step (s : State) : Host.Outcome State Fault Refusal :=
  match nextActivity s with
  | .rest => .next s
  | .resetNow t => .next (hardReset t)
  | .run i t => exec i t
  | .begin c t => .next (startCommand c t)
  | .proceed => .next (transition s)

/-- `s` with the table word `w` of `nbits` bits placed where `step` fetches its next instruction. -/
def State.withFetchWord (s : State) (nbits w : Nat) : State := placeWord nbits w s

end Sys2Proof.Machine
end

