-- ==== Sys2Proof/Safety.lean ====
section
/-! DEFINITION. What a safe run is, and the invariants the claims speak of. No outcome of a command is a fault
(60_exceptions.md R261); a run is unsafe only where the host breaks the one rule the block relies on (R280). -/

namespace Sys2Proof.Machine

/-! ## Safe runs -/

/-- The host never issues a command without waiting for the one in progress (R280). -/
def HostReq.serialised : HostReq → Bool
  | .concurrent _ => false
  | .command _ => true
  | .start _ => true
  | .reset => true

/-- Every request still to come keeps the serialisation rule. -/
def State.serialised (s : State) : Bool := s.pending.all HostReq.serialised

/-- A run of `n` steps from `s` reaches a state. -/
def Safe (n : Nat) (s : State) : Prop := ∃ t, Host.Core.run Sys2Proof.core n s = .next t

/-! ## Draws -/

/-- Nothing happens on the line but bytes arriving: the premise under which the stream contract of R198 holds. -/
def cleanDraw (d : Draw) : Bool := d.event.isNone

/-! ## The buffer -/

/-- `rlen ≤ RBUF_CAP` (R20, R22). -/
def CapacityInv (s : State) : Prop := Memory.wf s.cap s.rbuf = true

/-- There is room for at least one more byte (R180). -/
def State.hasRoom (s : State) : Bool :=
  match s.cap with
  | .finite n _ => s.rlen < n
  | .unbounded => true

/-! ## The result registers -/

/-- `RXMSG` is canonical, so `RXMSG.len ≤ 8`, and `STATUS` is 0 or 1 (R24, R26, R31, U3). -/
def ResultInv (s : State) : Prop :=
  s.rxmsg.canonical = true ∧ (s.status = Config.statusOk ∨ s.status = Config.statusFail)

/-! ## Conservation of received bytes -/

/-- The bytes of a group (R69). -/
def Group.bytes : Group → Bytes
  | .frame bytes _ => bytes
  | .dropped b => [b]

/-- A frame group holds exactly the wire bytes of its message (R69). -/
def Group.exact : Group → Bool
  | .frame bytes m => m.encodable && bytes == encodeFrame m
  | .dropped _ => true

/-- The conservation law (R69): while a session is open, every byte `T.read` returned is in exactly one group or
still in the buffer, in order. -/
def Conserved (s : State) : Prop :=
  s.sess = .opened →
    s.hist.rxAll = s.hist.groups.flatMap Group.bytes ++ s.rbuf ∧ ∀ g ∈ s.hist.groups, g.exact = true

/-! ## Session and state machine -/

/-- The device is open. -/
def Dev.isOpen : Dev → Bool
  | .closed => false
  | .opened _ => true

/-- No timer runs and no transport call is in progress. -/
def State.quiet (s : State) : Bool := s.wrTimer.isNone && s.rdTimer.isNone && s.call.isNone

/-- A running timer is at most its bound (R254). -/
def timerWithin (bound : Nat) (timer : Option Nat) : Bool :=
  match timer with
  | none => false
  | some t => t ≤ bound

/-- What holds in each state of the state machine (R21, R29, R148, R175, R227): where a transport call is in progress,
under which timer, and which tests have been passed. -/
def FsmInv (s : State) : Bool :=
  match s.fsm with
  | .idle => s.quiet
  | .sEncode => s.quiet
  | .sWrite =>
    s.sess == .opened && s.sendOperandOk && timerWithin Config.wrTimeoutMs s.wrTimer && s.rdTimer.isNone && s.call.isSome
  | .rDecode1 => s.sess == .opened && s.quiet
  | .rWait =>
    s.sess == .opened && s.hasRoom && timerWithin Config.rdTimeoutMs s.rdTimer && s.wrTimer.isNone && s.call.isSome
  | .rAvail => s.sess == .opened && s.hasRoom && s.quiet
  | .rRead =>
    s.sess == .opened && s.hasRoom && timerWithin Config.rdTimeoutMs s.rdTimer && s.wrTimer.isNone && s.call.isSome
  | .rDecode2 => s.sess == .opened && s.quiet
  | .oOpening =>
    s.sess == .closed && s.openOperandsOk && s.wrTimer.isNone && s.rdTimer.isNone && s.call.isSome
  | .cClosing => s.sess == .closed && s.wrTimer.isNone && s.rdTimer.isNone && s.call.isSome

/-- A closed session holds no bytes (R21); an open one has its device open (R205). -/
def SessionInv (s : State) : Prop :=
  (s.sess = .closed → s.rbuf = []) ∧ (s.sess = .opened → s.env.dev.isOpen = true)

/-- The invariant of the machine (the conservation law stands beside it). -/
structure Inv (s : State) : Prop where
  capacity : CapacityInv s
  result : ResultInv s
  fsm : FsmInv s = true
  session : SessionInv s

end Sys2Proof.Machine
end

