-- ==== Sys2Proof/Certificates/Slice0/Obligations.lean ====
section
/-! DEFINITION. The statements for the provers. Each docstring names the rules of spec/ it formalises.
`s.toIdle` is `s` with the state machine idle, no timer running and no call in progress, where every command ends. -/

open Sys2Proof Sys2Proof.Machine

/-! ## The codec -/

/-- R112, R113, R114: ENCODE hands back the frame of TXMSG. A remote message ignores `len` and `data`; a data
message sends its `len` meaningful bytes in order; the identifier goes most significant byte first, unmasked. -/
def Obligations.EncodeHandsBackTheFrame : Prop :=
  ∀ s : State,
    let hi : Byte := BitVec.ofNat 8 (s.txmsg.cobId.toNat / 256)
    let lo : Byte := BitVec.ofNat 8 (s.txmsg.cobId.toNat % 256)
    (s.txmsg.rtr = true → exec .encode s = .next { s with result := .frame [0xD3, hi, lo] }) ∧
    (s.txmsg.rtr = false → s.txmsg.len.toNat ≤ 8 →
      let f : Bytes := [0xE1, s.txmsg.len, hi, lo] ++
        (List.range s.txmsg.len.toNat).map fun i => s.txmsg.data.toList.getD i 0
      exec .encode s = .next { s with result := .frame f })

/-- Outside the precondition of R111 ENCODE still completes and changes nothing but the value handed back, which
is free (the model's choice, log 8). -/
def Obligations.EncodeCompletesOutsideItsPrecondition : Prop :=
  ∀ s : State, s.txmsg.rtr = false → 8 < s.txmsg.len.toNat →
    ∃ f, exec .encode s = .next { s with result := .frame f }

/-- R85: the identifier is split and joined exactly, on all 16 bits, most significant byte first. -/
def Obligations.IdentifierSplitsAndJoinsExactly : Prop :=
  (∀ c : Half, (idHigh c).toNat = c.toNat / 256 ∧ (idLow c).toNat = c.toNat % 256 ∧
    joinId (idHigh c) (idLow c) = c) ∧
  (∀ h l : Byte, (joinId h l).toNat = h.toNat * 256 + l.toNat ∧
    idHigh (joinId h l) = h ∧ idLow (joinId h l) = l)

/-- R110, R115: DECODE as a step hands back the verdict on the residual buffer and changes nothing else. -/
def Obligations.DecodeHandsBackTheVerdict : Prop :=
  ∀ s : State, exec .decode s = .next { s with result := .verdict (decodeFrame s.rbuf) }

/-- R116, R117: fewer than three bytes are Incomplete, whatever they are; so is a data frame with three bytes
buffered, for every third byte and every declared length, and one whose declared length exceeds the buffer length
less four. -/
def Obligations.DecodeUnfinishedFrameIsIncomplete : Prop :=
  (∀ b : Bytes, b.length < 3 → decodeFrame b = .incomplete) ∧
  (∀ x y : Byte, decodeFrame [0xE1, x, y] = .incomplete) ∧
  (∀ (L x y : Byte) (rest : Bytes), rest.length < L.toNat →
    decodeFrame (0xE1 :: L :: x :: y :: rest) = .incomplete)

/-- R118, R124: a data frame all of whose declared bytes are there and that declares more than eight is
Invalid(BadLen), while bytes are missing it is Incomplete; any first byte but the two tags, with at least three
bytes buffered, is Invalid(BadTag). -/
def Obligations.DecodeInvalidHeads : Prop :=
  (∀ (L x y : Byte) (rest : Bytes), 8 < L.toNat →
    (L.toNat ≤ rest.length → decodeFrame (0xE1 :: L :: x :: y :: rest) = .invalid .badLen) ∧
    (rest.length < L.toNat → decodeFrame (0xE1 :: L :: x :: y :: rest) = .incomplete)) ∧
  (∀ (t x y : Byte) (rest : Bytes), t ≠ 0xE1 → t ≠ 0xD3 → decodeFrame (t :: x :: y :: rest) = .invalid .badTag)

/-- R119, R120: a complete data frame gives its identifier, length and payload, zero bytes behind the payload,
and consumes `4 + L` bytes; the bytes behind it are not looked at. -/
def Obligations.DecodeCompleteDataFrame : Prop :=
  ∀ (L hi lo : Byte) (payload rest : Bytes), payload.length = L.toNat → L.toNat ≤ 8 →
    ∃ m, decodeFrame (0xE1 :: L :: hi :: lo :: (payload ++ rest)) = .complete m (4 + L.toNat) ∧
      m.cobId.toNat = hi.toNat * 256 + lo.toNat ∧ m.rtr = false ∧ m.len = L ∧
      ∀ i < 8, m.data.toList.getD i 0 = if i < L.toNat then payload.getD i 0 else 0

/-- R123, R120: a remote frame gives its identifier, `rtr = 1`, `len = 0` and zero data, and consumes three bytes. -/
def Obligations.DecodeRemoteFrame : Prop :=
  ∀ (hi lo : Byte) (rest : Bytes),
    decodeFrame (0xD3 :: hi :: lo :: rest) =
      .complete ⟨BitVec.ofNat 16 (hi.toNat * 256 + lo.toNat), true, 0, #v[0, 0, 0, 0, 0, 0, 0, 0]⟩ 3

/-- R129: the verdict table, and its two bounds: an Incomplete buffer has fewer than 259 bytes, a Complete verdict
consumes 3 to 12 bytes and no more than are there. -/
def Obligations.DecodeVerdictTable : Prop :=
  ∀ b : Bytes,
    (b.length ≤ 2 → decodeFrame b = .incomplete) ∧
    (3 ≤ b.length → b.getD 0 0 = 0xD3 → ∃ m, m.rtr = true ∧ decodeFrame b = .complete m 3) ∧
    (b.length = 3 → b.getD 0 0 = 0xE1 → decodeFrame b = .incomplete) ∧
    (4 ≤ b.length → b.getD 0 0 = 0xE1 → b.length - 4 < (b.getD 1 0).toNat → decodeFrame b = .incomplete) ∧
    (4 ≤ b.length → b.getD 0 0 = 0xE1 → (b.getD 1 0).toNat ≤ b.length - 4 → (b.getD 1 0).toNat ≤ 8 →
      ∃ m, m.rtr = false ∧ decodeFrame b = .complete m (4 + (b.getD 1 0).toNat)) ∧
    (13 ≤ b.length → b.getD 0 0 = 0xE1 → 9 ≤ (b.getD 1 0).toNat → (b.getD 1 0).toNat ≤ b.length - 4 →
      decodeFrame b = .invalid .badLen) ∧
    (3 ≤ b.length → b.getD 0 0 ≠ 0xD3 → b.getD 0 0 ≠ 0xE1 → decodeFrame b = .invalid .badTag) ∧
    (decodeFrame b = .incomplete → b.length < 259) ∧
    (∀ m k, decodeFrame b = .complete m k → 3 ≤ k ∧ k ≤ 12 ∧ k ≤ b.length)

/-- R121: DECODE looks at no byte of a buffer shorter than three; else at the tag; for tag E1 at the length byte;
and at the rest of the frame only if the verdict is Complete. Two buffers of one length that agree on those bytes
get the same verdict. -/
def Obligations.DecodeLooksOnlyAtTheFrame : Prop :=
  ∀ b c : Bytes, b.length = c.length →
    (3 ≤ b.length → b.getD 0 0 = c.getD 0 0) →
    (3 ≤ b.length → b.getD 0 0 = 0xE1 → b.getD 1 0 = c.getD 1 0) →
    (∀ m k, decodeFrame b = .complete m k → b.take k = c.take k) →
    decodeFrame b = decodeFrame c

/-- R125: the round trip, up to the meaningful fields, exact on canonical messages; and what DECODE completes is
what ENCODE of the message gives. -/
def Obligations.DecodeEncodeRoundTrip : Prop :=
  (∀ m : Message, (m.rtr = true ∨ m.len.toNat ≤ 8) →
    ∃ m', decodeFrame (encodeMessage m) = .complete m' (encodeMessage m).length ∧
      m'.sameMeaning m = true ∧ m'.canonical = true ∧ (m.canonical = true → m' = m)) ∧
  (∀ (b : Bytes) (m : Message) (k : Nat), decodeFrame b = .complete m k → encodeMessage m = b.take k)

/-- R126: only Incomplete can change when bytes are appended. -/
def Obligations.DecodeIsStableUnderExtension : Prop :=
  ∀ b c : Bytes,
    (∀ m k, decodeFrame b = .complete m k → decodeFrame (b ++ c) = .complete m k) ∧
    (∀ r, decodeFrame b = .invalid r → decodeFrame (b ++ c) = .invalid r)

/-- R127: every proper prefix of an encoded frame is Incomplete. -/
def Obligations.ProperPrefixOfAFrameIsIncomplete : Prop :=
  ∀ (m : Message) (j : Nat), (m.rtr = true ∨ m.len.toNat ≤ 8) → j < (encodeMessage m).length →
    decodeFrame ((encodeMessage m).take j) = .incomplete

/-! ## Encodings of the opcode table -/

/-- Decoding an encoded well-formed instruction gives it back, whatever bytes follow it; BADTAG is seen once two more
bytes are there (R116). The codec functions and the primitives have no code word (R97). That a code word is a selector
or bytes at the cursor is the model's form of R97 (log 11). -/
def Obligations.DecodeGivesBackTheEncodedInstruction : Prop :=
  ∀ (i : Instr) (rest : Bytes), i.wf = true →
    match encode i with
    | some w => (∀ t, i = .badTag t → 2 ≤ rest.length) → decode (w.followedBy rest) = .ok i
    | none => i.hasPattern = false

/-- R81, R82, R87, R92: the eight selector values, and frames written out byte by byte, decode to the instructions
they stand for. -/
def Obligations.WrittenOutCodeWordsDecode : Prop :=
  (decode (.selector 1) = .ok .openCmd ∧ decode (.selector 2) = .ok .closeCmd ∧
    decode (.selector 3) = .ok .send ∧ decode (.selector 4) = .ok .recv ∧
    decode (.selector 5) = .ok .chbaud ∧ decode (.selector 0) = .ok (.cmdReserved 0) ∧
    decode (.selector 6) = .ok (.cmdReserved 6) ∧ decode (.selector 7) = .ok (.cmdReserved 7)) ∧
  decode (.atCursor [0xE1, 0x02, 0x01, 0x23, 0xAA, 0xBB]) = .ok (.data 0x123 2 [0xAA, 0xBB]) ∧
  decode (.atCursor [0xE1, 0x00, 0x01, 0x23]) = .ok (.data 0x123 0 []) ∧
  decode (.atCursor [0xD3, 0x07, 0xFF]) = .ok (.remote 0x7FF) ∧
  decode (.atCursor [0xD2, 0x00, 0x00]) = .ok (.badTag 0xD2) ∧
  decode (.atCursor [0xE1, 0x00, 0x01]) = .error .incomplete ∧
  decode (.atCursor [0xE1, 9, 0, 0, 1, 2, 3, 4, 5, 6, 7, 8, 9]) = .error .badLen

/-! ## Frames at the cursor -/

/-- R119, R163: DATA delivers its message and consumes `4 + len` bytes; nothing else changes but the history. A frame
as an instruction of its own and the history are the model's form (log 18, log 19). -/
def Obligations.DataFrameIsDelivered : Prop :=
  ∀ (cobId : Half) (len : Byte) (payload : Bytes) (s : State),
    (Instr.data cobId len payload).wf = true →
    ∃ m : Message, m.cobId = cobId ∧ m.rtr = false ∧ m.len = len ∧
      (∀ i < 8, m.data.toList.getD i 0 = payload.getD i 0) ∧
      exec (.data cobId len payload) s = .next { s.toIdle with
        rbuf := s.rbuf.drop (4 + len.toNat)
        rxmsg := m
        status := 0
        hist := ⟨s.hist.rxAll, s.hist.groups ++ [.frame (s.rbuf.take (4 + len.toNat)) m]⟩ }

/-- R123, R163: REMOTE delivers a message with `rtr = 1`, `len = 0`, zero data and consumes 3 bytes. The model's form:
log 18, log 19. -/
def Obligations.RemoteFrameIsDelivered : Prop :=
  ∀ (cobId : Half) (s : State),
    let m : Message := ⟨cobId, true, 0, #v[0, 0, 0, 0, 0, 0, 0, 0]⟩
    exec (.remote cobId) s = .next { s.toIdle with
      rbuf := s.rbuf.drop 3
      rxmsg := m
      status := 0
      hist := ⟨s.hist.rxAll, s.hist.groups ++ [.frame (s.rbuf.take 3) m]⟩ }

/-- R170: BADTAG, and a data frame that declares more than eight bytes, cost exactly the leading byte; `STATUS`,
`RXMSG` and everything else stay. The model's form: log 18, log 19. -/
def Obligations.InvalidHeadCostsOneByte : Prop :=
  ∀ (s : State) (b : Byte) (rest : Bytes), s.rbuf = b :: rest →
    let t : State := { s with rbuf := rest, hist := ⟨s.hist.rxAll, s.hist.groups ++ [.dropped b]⟩ }
    (∀ tag, exec (.badTag tag) s = .next t) ∧
    (∀ cobId len payload, 8 < len.toNat → exec (.data cobId len payload) s = .next t)

/-- R163, R170: RECV runs the frame it finds at the cursor. A complete frame is the whole of the command, with no
transport call; after BADTAG, and after an impossible length, the command goes on to its wait with the byte gone. The
model's form: log 18. -/
def Obligations.RecvRunsTheFrameAtTheCursor : Prop :=
  ∀ s : State, s.fsm = .idle → s.sess = .opened →
    match decode (.atCursor s.rbuf) with
    | .ok (.badTag t) => ∃ u, exec (.badTag t) s = .next u ∧ exec .recv s = .next (recvWait u).state
    | .ok i => exec .recv s = exec i s
    | .error .badLen => exec .recv s = .next (recvWait (dropOne s)).state
    | .error .incomplete => exec .recv s = .next (recvWait s).state

/-! ## OPEN and CLOSE -/

/-- R215, R212, R214: OPEN on an open session fails; on a closed one it fails with a baud token other than 1M whatever
the port, and with an unparsable port; in these cases `T.open` is not called and nothing but `STATUS` changes. When
`T.open` answers fail it fails too, whether or not the device was left open by a reset: the session stays closed, the
buffer stays, the device stays as it was; on a closed device nothing of the environment changes but the time. The
answer of `T.open` is a draw (log 2), the time the model's (log 17). That a device left open by a reset (log 15) stays
as it was when `T.open` fails is the model's choice (log 13). -/
def Obligations.OpenFailures : Prop :=
  ∀ s : State, s.fsm = .idle →
    ((s.sess = .opened ∨ (∃ token, token ≠ ['1', 'M'] ∧ s.host.baudOk = baudOkOf token) ∨ s.host.portOk = false) →
      exec .openCmd s = .next { s.toIdle with status := 1 }) ∧
    (s.sess = .closed → s.host.baudOk = true → s.host.portOk = true → s.nextDraw.1.accept = false →
      ∃ t, exec .openCmd s = .next t ∧
        t = { s.nextDraw.2.toIdle with status := 1, env := t.env } ∧
        t.env.dev = s.env.dev ∧ t.env.wireTx = s.env.wireTx ∧
        (s.env.dev = .closed → t.env = { s.env with clock := t.env.clock }))

/-- R213, R274, R218: when the device opens, OPEN succeeds: the session is open with an empty buffer and an empty
transport, the device is configured 8 data bits, no parity, one stop bit, abort on error, at the default rate
whatever the token was; `RXMSG`, `TXMSG` and the bytes on the wire stay. -/
def Obligations.OpenSucceeds : Prop :=
  ∀ s : State, s.fsm = .idle → s.sess = .closed → s.host.baudOk = true → s.host.portOk = true →
    s.nextDraw.1.accept = true →
    ∃ t, exec .openCmd s = .next t ∧
      t = { s.nextDraw.2.toIdle with sess := .opened, rbuf := [], status := 0, env := t.env, hist := t.hist } ∧
      t.env.dev = .opened
        ⟨s.host.port, Config.baudDefault, 8, .noParity, 1, true, Config.txBufSize, Config.rxBufSize⟩ ∧
      t.env.rxq = [] ∧ t.env.txHeld = [] ∧ t.env.wireTx = s.env.wireTx

/-- R219, R220: CLOSE of an open session purges and releases the transport and discards the buffer; with nothing
open it changes nothing; it reports success and leaves `RXMSG` in both cases. How long `T.close` takes, and which draw
says so (log 2), is left open. -/
def Obligations.CloseAlwaysSucceeds : Prop :=
  ∀ s : State, s.fsm = .idle →
    (s.sess = .opened → ∃ t, exec .closeCmd s = .next t ∧
      t = { s.toIdle with
        sess := .closed, rbuf := [], status := 0, env := t.env, draws := t.draws, drawCount := t.drawCount } ∧
      t.env.dev = .closed ∧ t.env.rxq = [] ∧ t.env.txHeld = [] ∧ t.env.wireTx = s.env.wireTx) ∧
    (s.sess = .closed → exec .closeCmd s = .next { s.toIdle with status := 0 })

/-! ## SEND -/

/-- R141, R142: SEND without a session, or of a data message with `len > 8`, fails before it encodes or writes;
nothing but `STATUS` changes. -/
def Obligations.SendRefusesWithoutWriting : Prop :=
  ∀ s : State, s.fsm = .idle →
    (s.sess = .closed ∨ (s.txmsg.rtr = false ∧ 8 < s.txmsg.len.toNat)) →
    exec .send s = .next { s.toIdle with status := 1 }

/-- R143, R145: SEND hands the whole frame to one write; the `k` bytes it takes are the first `k` and stay on the
wire; `STATUS` is 0 if and only if all were taken, else 1. No other register changes, and the device stays open. -/
def Obligations.SendReportsWhetherAllWasTaken : Prop :=
  ∀ s : State, s.fsm = .idle → s.sess = .opened → (s.txmsg.rtr = true ∨ s.txmsg.len.toNat ≤ 8) →
    ∃ t k, exec .send s = .next t ∧ k ≤ (encodeMessage s.txmsg).length ∧
      t = { s.nextDraw.2.toIdle with status := if k = (encodeMessage s.txmsg).length then 0 else 1, env := t.env } ∧
      t.env.wireTx = s.env.wireTx ++ (encodeMessage s.txmsg).take k ∧ t.env.dev = s.env.dev

/-- R140, R195, R203 over the model's draws (log 2, log 3, log 12, log 17): how many bytes SEND's write takes and what
it leaves of the environment. Every count of the range can occur; an expired bound (R144, R244) or a communication
error takes fewer than all. That the accepted bytes are all still held when the write returns is the model's choice
(log 14). -/
def Obligations.SendWritesOneFrame : Prop :=
  ∀ s : State, s.fsm = .idle → s.sess = .opened → (s.txmsg.rtr = true ∨ s.txmsg.len.toNat ≤ 8) →
    let d := s.nextDraw.1
    let f := encodeMessage s.txmsg
    let line := s.env.advance d
    ∃ k, k ≤ f.length ∧
      (line.commErr = false → d.ticks < 1000 → k = min d.moves f.length) ∧
      (line.commErr = true ∨ 1000 ≤ d.ticks → k = min d.moves (f.length - 1) ∧ k < f.length) ∧
      exec .send s = .next { s.nextDraw.2.toIdle with
        status := if k = f.length then 0 else 1
        env := { line with
          wireTx := s.env.wireTx ++ f.take k
          txHeld := line.txHeld ++ f.take k
          commErr := false
          clock := s.env.clock + min d.ticks 1000 } }

/-- R147, R35: what SEND does does not depend on the receive side, and it leaves it alone. -/
def Obligations.SendIgnoresTheReceiveSide : Prop :=
  ∀ (s t : State) (rbuf : Bytes) (rxmsg : Message), exec .send s = .next t →
    t.rbuf = s.rbuf ∧ t.rxmsg = s.rxmsg ∧ t.host = s.host ∧ t.hist = s.hist ∧
    exec .send { s with rbuf := rbuf, rxmsg := rxmsg } = .next { t with rbuf := rbuf, rxmsg := rxmsg }

/-! ## RECV -/

/-- R161: RECV without a session clears `RXMSG` and fails, without decoding and without a call. -/
def Obligations.RecvWithoutASessionFails : Prop :=
  ∀ s : State, s.fsm = .idle → s.sess = .closed →
    exec .recv s = .next { s.toIdle with rxmsg := zeroMsg, status := 1 }

/-- R163: a frame already buffered is returned at once: no draw is taken, no time passes, no byte is read, and the
bytes behind it stay in order. -/
def Obligations.RecvReturnsABufferedFrameAtOnce : Prop :=
  ∀ (s : State) (m : Message) (k : Nat), s.fsm = .idle → s.sess = .opened → decodeFrame s.rbuf = .complete m k →
    ∃ h, exec .recv s = .next { s.toIdle with rbuf := s.rbuf.drop k, rxmsg := m, status := 0, hist := h } ∧
      h.rxAll = s.hist.rxAll

/-- R174, R173: the causes with which RECV of an open session ends, and what each leaves in the buffer. `B` is the
buffer at entry, less one leading byte if DECODE found it Invalid; `c` is what the read returned. The frame: only the
buffer, `RXMSG`, `STATUS`, the receive side of the environment, the draws and the history change. The history is the
model's record (log 19). -/
def Obligations.RecvCausesAndBuffers : Prop :=
  ∀ s : State, s.fsm = .idle → s.sess = .opened → (∀ m k, decodeFrame s.rbuf ≠ .complete m k) →
    let B := if decodeFrame s.rbuf = .incomplete then s.rbuf else s.rbuf.drop 1
    ∃ t c, exec .recv s = .next t ∧ t = (commandRecv s).state ∧ t.hist.rxAll = s.hist.rxAll ++ c ∧
      t = { s.toIdle with
        rbuf := t.rbuf, rxmsg := t.rxmsg, status := t.status, env := t.env
        draws := t.draws, drawCount := t.drawCount, hist := t.hist } ∧
      t.env.wireTx = s.env.wireTx ∧ t.env.dev = s.env.dev ∧
      match (commandRecv s).cause with
      | none => ∃ m k, decodeFrame (B ++ c) = .complete m k ∧
          t.rbuf = (B ++ c).drop k ∧ t.rxmsg = m ∧ t.status = 0 ∧ c ≠ []
      | some cause => t.rxmsg = zeroMsg ∧ t.status = 1 ∧
          match cause with
          | .noDataTimeout | .noDataEmpty | .noDataZeroRead => t.rbuf = B ∧ c = []
          | .noDataInvalid r => c ≠ [] ∧ decodeFrame (B ++ c) = .invalid r ∧ t.rbuf = (B ++ c).drop 1
          | .noDataIncomplete => c ≠ [] ∧ decodeFrame (B ++ c) = .incomplete ∧ t.rbuf = B ++ c
          | _ => False

/-- R164 to R168: the steps of RECV for a buffer that holds no frame yet, on a device without errors: it waits; if no
readability is signalled within 500 ticks it is a timeout; if nothing is pending it is empty; else it reads at most
`min(3000, RBUF_CAP - rlen)` bytes, a prefix of what is pending, and appends them all. What the line and the transport
do is in three draws (log 2, log 12), and a tie at the bound is a timeout (log 17). -/
def Obligations.RecvWaitsAsksAndReads : Prop :=
  ∀ (s : State) (d₁ d₂ d₃ : Draw) (ds : List Draw) (cfg : SerialConfig),
    s.fsm = .idle → s.sess = .opened → s.draws = d₁ :: d₂ :: d₃ :: ds → s.env.dev = .opened cfg →
    s.env.commErr = false → cleanDraw d₁ = true → cleanDraw d₂ = true → cleanDraw d₃ = true →
    decodeFrame s.rbuf = .incomplete →
    let q₂ := s.env.rxq ++ d₁.arrivals ++ d₂.arrivals
    let q₃ := q₂ ++ d₃.arrivals
    let c := q₃.take (min d₃.moves (min (readRequest s.cap s.rbuf.length) q₃.length))
    ∃ t, exec .recv s = .next t ∧
      if d₁.accept = false ∨ 500 ≤ d₁.ticks then
        (commandRecv s).cause = some .noDataTimeout ∧ t.draws = d₂ :: d₃ :: ds ∧ t.rbuf = s.rbuf ∧
          t.env.rxq = s.env.rxq ++ d₁.arrivals
      else if q₂ = [] then
        (commandRecv s).cause = some .noDataEmpty ∧ t.draws = d₃ :: ds ∧ t.rbuf = s.rbuf ∧ t.env.rxq = []
      else if c = [] then
        (commandRecv s).cause = some .noDataZeroRead ∧ t.draws = ds ∧ t.rbuf = s.rbuf ∧ t.env.rxq = q₃
      else
        t.hist.rxAll = s.hist.rxAll ++ c ∧ t.draws = ds ∧ c ++ t.env.rxq = q₃ ∧
          (decodeFrame (s.rbuf ++ c) = .incomplete → t.rbuf = s.rbuf ++ c)

/-- R182, R35: what RECV does does not depend on the host's message and operands; it accepts no byte for sending
and takes none back. -/
def Obligations.RecvIgnoresTheTransmitSide : Prop :=
  ∀ (s t : State) (p : HostPort), exec .recv s = .next t →
    t.env.wireTx = s.env.wireTx ∧ t.env.dev = s.env.dev ∧ t.host = s.host ∧
    exec .recv { s with host := p } = .next { t with host := p }

/-- R180, R54: whenever RECV reaches its read the request is at least one byte, and what it can return fits. -/
def Obligations.ReadRequestIsPositiveAndFits : Prop :=
  ∀ (cap : RbufCap) (b : Bytes), Memory.wf cap b = true →
    (decodeFrame b = .incomplete → 1 ≤ readRequest cap b.length) ∧
    (∀ r, decodeFrame b = .invalid r → 1 ≤ readRequest cap (b.drop 1).length) ∧
    readRequest cap b.length ≤ 3000 ∧
    (∀ c : Bytes, c.length ≤ readRequest cap b.length → Memory.wf cap (b ++ c) = true)

/-- R176: a frame cut into two chunks at any place is returned by the RECV that reads the second chunk, and the buffer
is empty then; the RECV that reads the first returns none. The chunks are in the draws (log 2, log 12). -/
def Obligations.SplitFrameIsReassembled : Prop :=
  ∀ (s : State) (m : Message) (j : Nat) (a₁ a₂ : Draw) (b₁ b₂ c₁ c₂ : Draw) (ds : List Draw) (cfg : SerialConfig),
    s.fsm = .idle → s.sess = .opened → s.rbuf = [] → s.env.dev = .opened cfg → s.env.rxq = [] →
    s.env.commErr = false → m.canonical = true → 0 < j → j < (encodeMessage m).length →
    s.draws = a₁ :: b₁ :: c₁ :: a₂ :: b₂ :: c₂ :: ds →
    (∀ d ∈ [a₁, b₁, c₁, a₂, b₂, c₂], cleanDraw d = true) →
    a₁.accept = true → a₁.ticks < 500 → a₂.accept = true → a₂.ticks < 500 →
    a₁.arrivals ++ b₁.arrivals = (encodeMessage m).take j → c₁.arrivals = [] → j ≤ c₁.moves →
    a₂.arrivals ++ b₂.arrivals = (encodeMessage m).drop j → c₂.arrivals = [] →
    (encodeMessage m).length ≤ c₂.moves →
    ∃ t u, exec .recv s = .next t ∧ t.status = 1 ∧ t.rxmsg = zeroMsg ∧ t.rbuf = (encodeMessage m).take j ∧
      exec .recv t = .next u ∧ u.status = 0 ∧ u.rxmsg = m ∧ u.rbuf = []

/-- R293: one RECV delivers at most one message, drops at most two bytes and reads at most 3000; one SEND sends at
most one frame. What is delivered, dropped and read is counted in the model's record (log 19), which agrees with the
buffer. -/
def Obligations.ThroughputBounds : Prop :=
  (∀ s t : State, exec .recv s = .next t →
    ∃ gs c, t.hist.groups = s.hist.groups ++ gs ∧ t.hist.rxAll = s.hist.rxAll ++ c ∧ c.length ≤ 3000 ∧
      (gs.filter fun g => g matches .frame _ _).length ≤ 1 ∧
      (gs.filter fun g => g matches .dropped _).length ≤ 2 ∧
      s.rbuf ++ c = gs.flatMap Group.bytes ++ t.rbuf ∧
      (t.status = 0 ↔ ∃ bytes, .frame bytes t.rxmsg ∈ gs)) ∧
  (∀ s t : State, exec .send s = .next t →
    ∃ f c, 3 ≤ f.length ∧ f.length ≤ 12 ∧ c <+: f ∧ t.env.wireTx = s.env.wireTx ++ c ∧
      (c = [] ∨ f = encodeMessage s.txmsg))

/-! ## CHBAUD, reserved selectors, commands in progress -/

/-- R222, R226: CHBAUD and the reserved selectors fail in every state and change nothing but `STATUS`. -/
def Obligations.ChbaudAndReservedSelectorsFail : Prop :=
  ∀ (code : BitVec 3) (s : State), s.fsm = .idle →
    exec .chbaud s = .next { s.toIdle with status := 1 } ∧
    exec (.cmdReserved code) s = .next { s.toIdle with status := 1 }

/-- R280: a command started while another is in progress is refused. -/
def Obligations.CommandInProgressRefusesAnother : Prop :=
  ∀ (c : Command) (s : State), s.fsm ≠ .idle → exec c.instr s = .refused .commandInProgress

/-! ## Transport primitives -/

/-- R191, R192: `T.open` answers ok or fail; on ok the device is open, configured and purged; on fail nothing of the
device changes but what the line did meanwhile, which is nothing while the device is closed. The answer is the draw's
(log 2, log 13), what the line does is log 12, the time the model's (log 17). -/
def Obligations.TransportOpenAnswers : Prop :=
  ∀ (dev baud : Nat) (s : State),
    let d := s.nextDraw.1
    exec (.tOpen dev baud) s = .next { s.nextDraw.2 with
      result := .openResult d.accept
      env := if d.accept then
          ⟨.opened ⟨dev, baud, 8, .noParity, 1, true, Config.txBufSize, Config.rxBufSize⟩,
            [], s.env.wireTx, [], false, s.env.clock + d.ticks⟩
        else { s.env.advance d with clock := s.env.clock + d.ticks } } ∧
    (s.env.dev = .closed → s.env.advance d = s.env)

/-- R193, R194: `T.close` purges and releases, always with success, and on a port already closed and purged changes
nothing but the time; `T.purge` discards what is received and unread and what is accepted and unsent, and nothing
else. That a primitive is a step, and what it clears, is the model's form (log 9, log 12, log 14); the time on the
clock is the model's (log 17): `T.close` takes the ticks of a draw (log 2), `T.purge` takes no draw and no time (log
21). -/
def Obligations.TransportCloseAndPurge : Prop :=
  ∀ s : State,
    exec .tClose s = .next { s.nextDraw.2 with
      result := .closeDone, env := ⟨.closed, [], s.env.wireTx, [], false, s.env.clock + s.nextDraw.1.ticks⟩ } ∧
    (∀ t u, exec .tClose s = .next t → exec .tClose t = .next u →
      u = { t.nextDraw.2 with env := { t.env with clock := t.env.clock + t.nextDraw.1.ticks } }) ∧
    exec .tPurge s = .next { s with result := .purgeDone, env := { s.env with rxq := [], txHeld := [] } }

/-- R195, R200, R203, R244: `T.write` takes a prefix of the bytes, all counts from none to all being possible, fewer
than all when its bound has expired or on a communication error, and returns within its bound. Over the draws: log 2,
log 3, log 12, log 17. That the accepted bytes are all still held when the write returns is the model's choice
(log 14). -/
def Obligations.TransportWriteTakesAPrefix : Prop :=
  ∀ (bytes : Bytes) (ms : Nat) (s : State),
    let d := s.nextDraw.1
    let line := s.env.advance d
    let k := if line.commErr = true ∨ ms ≤ d.ticks then min d.moves (bytes.length - 1) else min d.moves bytes.length
    k ≤ bytes.length ∧
    exec (.tWrite bytes ms) s = .next { s.nextDraw.2 with
      result := .written k
      env := { line with
        wireTx := s.env.wireTx ++ bytes.take k
        txHeld := line.txHeld ++ bytes.take k
        commErr := false
        clock := s.env.clock + min d.ticks ms } }

/-- R196, R199: `T.waitReadable` removes nothing and answers ready only before its bound expires and without a
communication error; `T.available` removes nothing, takes no time and answers the number of bytes pending. Over the
draws: log 2, log 12, log 17, log 21. -/
def Obligations.TransportWaitAndAvailableRemoveNothing : Prop :=
  ∀ (ms : Nat) (s : State),
    let d := s.nextDraw.1
    let line := s.env.advance d
    exec (.tWaitReadable ms) s = .next { s.nextDraw.2 with
      result := .readable (d.accept && decide (d.ticks < ms) && !line.commErr)
      env := { line with commErr := false, clock := s.env.clock + min d.ticks ms } } ∧
    exec .tAvailable s = .next { s.nextDraw.2 with result := .count line.rxq.length, env := line }

/-- R197, R200, R203: `T.read` returns a prefix of what is pending, at most `maxBytes`, and that prefix leaves;
nothing on a communication error. Over the draws: log 2, log 3, log 12, log 17. -/
def Obligations.TransportReadReturnsAPrefix : Prop :=
  ∀ (maxBytes ms : Nat) (s : State),
    let d := s.nextDraw.1
    let line := s.env.advance d
    ∃ c rest, line.rxq = c ++ rest ∧ c.length ≤ maxBytes ∧ (line.commErr = true → c = []) ∧
      (line.commErr = false → c.length = min d.moves (min maxBytes line.rxq.length)) ∧
      exec (.tRead maxBytes ms) s = .next { s.nextDraw.2 with
        result := .chunk c
        env := { line with rxq := rest, commErr := false, clock := s.env.clock + min d.ticks ms } }

/-- R198: on an open device and without an event on the line, what a read returns followed by what is pending after it
is what was pending before followed by what arrived: nothing added, removed or repeated. Over the draws: log 2, log
12. -/
def Obligations.CleanReadKeepsTheStream : Prop :=
  ∀ (s t : State) (maxBytes ms : Nat) (c : Bytes) (cfg : SerialConfig),
    s.env.dev = .opened cfg → cleanDraw s.nextDraw.1 = true →
    exec (.tRead maxBytes ms) s = .next t → t.result = .chunk c →
    c ++ t.env.rxq = s.env.rxq ++ s.nextDraw.1.arrivals ∧ t.env.wireTx = s.env.wireTx ∧ t.env.dev = s.env.dev

/-! ## Reset -/

/-- R38: the state after reset, as far as the spec gives it. -/
def Obligations.StateAfterReset : Prop :=
  State.reset.sess = .closed ∧ State.reset.rbuf = [] ∧ State.reset.rlen = 0 ∧
  State.reset.rxmsg = ⟨0, false, 0, #v[0, 0, 0, 0, 0, 0, 0, 0]⟩ ∧ State.reset.status = 0 ∧
  State.reset.fsm = .idle ∧ State.reset.wrTimer = none ∧ State.reset.rdTimer = none ∧
  State.reset.env.dev = .closed

/-- R270, R272: hardware reset abandons whatever is in progress and gives the block's registers their reset values;
the transport is not told, so outside OPEN and CLOSE the device stays as it is. A frame being written may stay on
the wire truncated. The request list is the model's form (log 10, log 15). -/
def Obligations.HardwareResetAtAnyTime : Prop :=
  ∀ (s : State) (rest : List HostReq), s.pending = .reset :: rest →
    ∃ t, step s = .next t ∧ t.sess = .closed ∧ t.rbuf = [] ∧ t.rxmsg = zeroMsg ∧ t.status = 0 ∧ t.fsm = .idle ∧
      t.wrTimer = none ∧ t.rdTimer = none ∧ t.pending = rest ∧ t.cap = s.cap ∧
      (s.fsm ≠ .oOpening → s.fsm ≠ .cClosing → t.env.dev = s.env.dev) ∧
      (s.fsm = .sWrite ∨ t.env.wireTx = s.env.wireTx) ∧
      (s.fsm = .sWrite → ∃ k, t.env.wireTx = s.env.wireTx ++ (encodeMessage s.txmsg).take k)

/-- R271: after reset the block does nothing by itself; CLOSE succeeds as a no-op and SEND, RECV and CHBAUD fail,
whatever the host presents; none opens the session. -/
def Obligations.OnlyOpenHelpsAfterReset : Prop :=
  ∀ p : HostPort, ∀ s : State, s = { State.reset with host := p } →
    step s = .next s ∧
    exec .closeCmd s = .next s ∧ exec .send s = .next { s with status := 1 } ∧
    exec .recv s = .next { s with status := 1 } ∧ exec .chbaud s = .next { s with status := 1 }

/-! ## The step -/

/-- The step runs the instruction its next request names: a command by its selector with the request's inputs
loaded; and a RECV that finds a complete frame at the cursor is exactly that frame's instruction (log 10). -/
def Obligations.StepRunsTheFetchedInstruction : Prop :=
  ∀ (s : State) (p : HostPort) (rest : List HostReq) (i : Instr), s.fsm = .idle →
    s.pending = .command p :: rest →
    (decode (.selector p.cmd) = .ok i → step s = exec i { s with host := p, pending := rest }) ∧
    (p.cmd = 4 → s.sess = .opened → decode (.atCursor s.rbuf) = .ok i → i.hasPattern = true →
      (∀ t, i ≠ .badTag t) → step s = exec i { s with host := p, pending := rest })

/-- A started command takes its first transition with its inputs loaded, and while it is in progress a step is
one transition or tick of the state machine, unless the next request is a reset or a concurrent command; with nothing
to do the step changes nothing (log 1, log 10). -/
def Obligations.StepAdvancesTheStateMachine : Prop :=
  (∀ (s : State) (p : HostPort) (rest : List HostReq), s.fsm = .idle → s.pending = .start p :: rest →
    step s = .next (startCommand (selectCommand p.cmd) { s with host := p, pending := rest })) ∧
  (∀ s : State, s.fsm ≠ .idle → (∀ rest, s.pending ≠ .reset :: rest) →
    (∀ p rest, s.pending ≠ .concurrent p :: rest) → step s = .next (transition s)) ∧
  (∀ s : State, s.fsm = .idle → s.pending = [] → step s = .next s)

/-- R246, R261, R280: a step never faults, and it is refused exactly when the host issues a command without waiting
for the one in progress. The request list is the model's (log 10, log 22). -/
def Obligations.StepIsRefusedOnlyForAConcurrentCommand : Prop :=
  ∀ s : State,
    (∃ p rest, s.pending = .concurrent p :: rest ∧ s.fsm ≠ .idle) ∧ step s = .refused .commandInProgress ∨
    (¬∃ p rest, s.pending = .concurrent p :: rest ∧ s.fsm ≠ .idle) ∧ ∃ t, step s = .next t

/-- R225, R246, R261: while the host serialises its commands, every run goes on: no command ends abruptly. The request
list is the model's (log 10). -/
def Obligations.SerialisedRunsNeverStop : Prop :=
  ∀ (n : Nat) (s : State), s.serialised = true → Safe n s

/-- R148, R175, R227, R60, R149: the state machine implements the commands. Started in IDLE it comes back to IDLE
after finitely many transitions and ticks, not before, and then the state is the one the whole transaction gives; all
commands but OPEN and CLOSE, whose calls have no bound, take at most 1005. Both readings of a command are in the model
(log 1), and the count rests on whole ticks (log 17). -/
def Obligations.StateMachineImplementsTheCommands : Prop :=
  ∀ (c : Command) (s : State), s.fsm = .idle →
    ∃ n, exec c.instr s = .next (transitions n (startCommand c s)) ∧
      (∀ k < n, (transitions k (startCommand c s)).fsm ≠ .idle) ∧
      (c ≠ .openSession → c ≠ .closeSession → n ≤ 1005)

/-! ## Invariants -/

/-- The invariant holds after reset. -/
def Obligations.InvariantAtReset : Prop := Inv State.reset ∧ Conserved State.reset

/-- R20, R21, R24, R26, R31, R148, R175, R180, R205, R227, R254: every step keeps the invariant. The call in progress
is the model's (log 1); in `C_CLOSING` the session is closed already (R21, log 16). -/
def Obligations.StepKeepsTheInvariant : Prop :=
  ∀ s t : State, Inv s → step s = .next t → Inv t

/-- R69, R23: every step keeps the conservation law: no received byte is lost, duplicated or reordered. The history it
speaks of is the model's record (log 19). -/
def Obligations.StepConservesReceivedBytes : Prop :=
  ∀ s t : State, Conserved s → step s = .next t → Conserved t

/-! ## Whole-machine rules -/

/-- R25, R33, R8: no instruction writes TXMSG, CMD, an operand, the capacity or the host's requests. -/
def Obligations.NoInstructionWritesTheHostInputs : Prop :=
  ∀ (i : Instr) (s t : State), exec i s = .next t →
    t.host = s.host ∧ t.cap = s.cap ∧ t.pending = s.pending

/-- R26: `RXMSG` is written by RECV, which delivers with the frames, and by no other instruction. That frames are
instructions is the model's form (log 18). -/
def Obligations.OnlyRecvWritesRxmsg : Prop :=
  ∀ (i : Instr) (s t : State), exec i s = .next t → t.rxmsg ≠ s.rxmsg →
    i = .recv ∨ (∃ c l p, i = .data c l p) ∨ (∃ c, i = .remote c)

/-- R252: `CLOSED → OPEN` only by a successful OPEN, `OPEN → CLOSED` only by CLOSE. -/
def Obligations.OnlyOpenAndCloseChangeTheSession : Prop :=
  ∀ (i : Instr) (s t : State), exec i s = .next t → t.sess ≠ s.sess →
    (s.sess = .closed ∧ t.sess = .opened ∧ i = .openCmd ∧ t.status = 0) ∨
    (s.sess = .opened ∧ t.sess = .closed ∧ i = .closeCmd ∧ t.status = 0)

/-- R50, R65, R205: the bytes on the wire only grow, and only by a prefix of one frame of SEND or of the bytes
given to `T.write`. -/
def Obligations.OnlySendPutsBytesOnTheWire : Prop :=
  ∀ (i : Instr) (s t : State), exec i s = .next t → t.env.wireTx ≠ s.env.wireTx →
    (i = .send ∧ ∃ k, t.env.wireTx = s.env.wireTx ++ (encodeMessage s.txmsg).take k) ∨
    (∃ bytes ms k, i = .tWrite bytes ms ∧ t.env.wireTx = s.env.wireTx ++ bytes.take k)

/-- R245, R203, R183: no failure of the transport closes the session or clears the buffer: SEND and RECV leave an open
session open, and the buffer before followed by the bytes read is the removed groups followed by the buffer after.
The groups and the bytes read are the model's record (log 19). -/
def Obligations.TransportFailuresKeepTheSession : Prop :=
  ∀ s t : State, (exec .send s = .next t ∨ exec .recv s = .next t) →
    t.sess = s.sess ∧
    ∃ gs c, t.hist.groups = s.hist.groups ++ gs ∧ t.hist.rxAll = s.hist.rxAll ++ c ∧
      s.rbuf ++ c = gs.flatMap Group.bytes ++ t.rbuf

/-- R149, R184, R292: how long a command waits. SEND at most 1000 ms, RECV at most 1000 ms and at most 500 ms when it
times out, a RECV with a frame already buffered and CHBAUD not at all. The clock is the model's (log 17). -/
def Obligations.WaitingIsBounded : Prop :=
  ∀ s t : State,
    (exec .send s = .next t → s.env.clock ≤ t.env.clock ∧ t.env.clock ≤ s.env.clock + 1000) ∧
    (exec .recv s = .next t → s.env.clock ≤ t.env.clock ∧ t.env.clock ≤ s.env.clock + 1000 ∧
      ((commandRecv s).cause = some .noDataTimeout → t.env.clock ≤ s.env.clock + 500) ∧
      (∀ m k, s.sess = .opened → decodeFrame s.rbuf = .complete m k → t.env.clock = s.env.clock)) ∧
    (exec .chbaud s = .next t → t.env.clock = s.env.clock)

/-- R21, R252: in a run the session opens only when an OPEN completes with success, and closes only when a CLOSE starts
or at a reset, with the buffer empty in all these cases; and a CLOSE started on the state machine closes it at once,
while the device is still to be released. The request list is the model's (log 10), and so is when inside a CLOSE the
buffer is emptied (log 16). -/
def Obligations.SessionIsOpenFromOpenToTheStartOfClose : Prop :=
  (∀ s t : State, Inv s → step s = .next t → t.sess ≠ s.sess →
    t.rbuf = [] ∧
    ((s.sess = .closed ∧ t.sess = .opened ∧ t.fsm = .idle ∧ t.status = 0 ∧
        (s.fsm = .oOpening ∨ s.fsm = .idle ∧ ∃ p rest, p.cmd = 1 ∧
          (s.pending = .command p :: rest ∨ s.pending = .concurrent p :: rest))) ∨
      (s.sess = .opened ∧ t.sess = .closed ∧
        ((∃ rest, s.pending = .reset :: rest) ∨ s.fsm = .idle ∧ ∃ p rest, p.cmd = 2 ∧
          (s.pending = .command p :: rest ∨ s.pending = .start p :: rest ∨ s.pending = .concurrent p :: rest))))) ∧
  (∀ (s : State) (p : HostPort) (rest : List HostReq), s.fsm = .idle → s.sess = .opened →
    s.pending = .start p :: rest → p.cmd = 2 →
    ∃ t, step s = .next t ∧ t.sess = .closed ∧ t.rbuf = [] ∧ t.fsm = .cClosing ∧ t.env = s.env)
end

