-- ==== Sys2Proof/Laws/Codec.lean ====
section
/-! SUPPORT. What the codec's functions do, said once: the identifier's bytes as numbers, the padded payload, the
form of an encoded frame, DECODE by the shape of the buffer, and what a Complete or Invalid verdict tells. -/

namespace Sys2Proof

/-! ## Identifier bytes -/

theorem idHigh_toNat (c : Half) : (idHigh c).toNat = c.toNat / 256 := by
  have h := c.isLt
  simp only [idHigh, BitVec.toNat_setWidth, BitVec.toNat_and, BitVec.toNat_ushiftRight, BitVec.toNat_ofNat]
  rw [show (255 : Nat) % 2 ^ 16 = 2 ^ 8 - 1 from rfl, Nat.and_two_pow_sub_one_eq_mod, Nat.shiftRight_eq_div_pow]
  omega

theorem idLow_toNat (c : Half) : (idLow c).toNat = c.toNat % 256 := by
  simp only [idLow, BitVec.toNat_setWidth, BitVec.toNat_and, BitVec.toNat_ofNat]
  rw [show (255 : Nat) % 2 ^ 16 = 2 ^ 8 - 1 from rfl, Nat.and_two_pow_sub_one_eq_mod]
  omega

theorem joinId_toNat (h l : Byte) : (joinId h l).toNat = h.toNat * 256 + l.toNat := by
  have hh := h.isLt
  have hl := l.isLt
  have e : (joinId h l).toNat = (h.toNat <<< 8) ||| l.toNat := by
    simp only [joinId, BitVec.toNat_or, BitVec.toNat_shiftLeft, BitVec.toNat_setWidth]
    rw [Nat.mod_eq_of_lt (show h.toNat < 2 ^ 16 by omega), Nat.mod_eq_of_lt (show l.toNat < 2 ^ 16 by omega),
      Nat.mod_eq_of_lt (by rw [Nat.shiftLeft_eq]; omega)]
  rw [e, ← Nat.shiftLeft_add_eq_or_of_lt (by omega) h.toNat, Nat.shiftLeft_eq]

/-! ## The padded payload -/

theorem pad8_getD (l : Bytes) (i : Nat) (h : i < 8) : (pad8 l).toList.getD i 0 = l.getD i 0 := by
  match i, h with
  | 0, _ | 1, _ | 2, _ | 3, _ | 4, _ | 5, _ | 6, _ | 7, _ => rfl

theorem pad8_take (l : Bytes) (n : Nat) (hn : l.length = n) (h : n ≤ 8) : (pad8 l).toList.take n = l := by
  subst hn
  match l, h with
  | [], _ => rfl
  | [_], _ => rfl
  | [_, _], _ => rfl
  | [_, _, _], _ => rfl
  | [_, _, _, _], _ => rfl
  | [_, _, _, _, _], _ => rfl
  | [_, _, _, _, _, _], _ => rfl
  | [_, _, _, _, _, _, _], _ => rfl
  | [_, _, _, _, _, _, _, _], _ => rfl
  | _ :: _ :: _ :: _ :: _ :: _ :: _ :: _ :: _ :: _, h => simp at h; omega

theorem data_length (v : Vector Byte 8) : v.toList.length = 8 := by simp

/-! ## Encoded frames -/

theorem encodeFrame_remote (m : Message) (h : m.rtr = true) :
    encodeFrame m = [Config.tagRemote, idHigh m.cobId, idLow m.cobId] := by simp [encodeFrame, h]

theorem encodeFrame_data (m : Message) (h : m.rtr = false) :
    encodeFrame m = Config.tagData :: m.len :: idHigh m.cobId :: idLow m.cobId :: m.payload := by
  simp [encodeFrame, Message.payload, h]

theorem payload_length (m : Message) (h : m.rtr = false) (hl : m.len.toNat ≤ 8) :
    m.payload.length = m.len.toNat := by
  simp [Message.payload, h]; omega

theorem encodable_iff (m : Message) : m.encodable = true ↔ m.rtr = true ∨ m.len.toNat ≤ 8 := by
  rw [Message.encodable, Bool.or_eq_true, decide_eq_true_iff]; rfl

theorem encodeMessage_encodable (m : Message) (h : m.encodable = true) : encodeMessage m = encodeFrame m := by
  simp [encodeMessage, h]

/-! ## DECODE by the shape of the buffer -/

/-- DECODE of a buffer with its first three bytes in sight (R115). -/
theorem decodeFrame_cons (t x y : Byte) (rest : Bytes) :
    decodeFrame (t :: x :: y :: rest) =
      if t = Config.tagData then
        match rest with
        | [] => .incomplete
        | z :: more =>
          if more.length < x.toNat then .incomplete
          else if 8 < x.toNat then .invalid .badLen
          else .complete (dataMessage (joinId y z) x (more.take x.toNat)) (4 + x.toNat)
      else if t = Config.tagRemote then .complete (remoteMessage (joinId x y)) 3
      else .invalid .badTag := by
  cases rest with
  | nil => simp [decodeFrame, byteAt, Config.minDecode, Config.lenRemote]
  | cons z more =>
    simp [decodeFrame, byteAt, Config.minDecode, Config.lenRemote, Config.maxDlen, Config.hdrData]

/-- A buffer shows fewer than three bytes or its first three. -/
theorem bytes_short_or_cons (b : Bytes) : b.length < 3 ∨ ∃ t x y rest, b = t :: x :: y :: rest := by
  match b with
  | [] | [_] | [_, _] => simp
  | t :: x :: y :: rest => exact .inr ⟨t, x, y, rest, rfl⟩

/-- What a Complete verdict tells of the buffer (R119, R123). -/
theorem decodeFrame_complete {b : Bytes} {m : Message} {k : Nat} (h : decodeFrame b = .complete m k) :
    (∃ hi lo rest, b = Config.tagRemote :: hi :: lo :: rest ∧ m = remoteMessage (joinId hi lo) ∧ k = 3) ∨
    (∃ L hi lo payload rest, payload.length = L.toNat ∧ L.toNat ≤ 8 ∧
      b = Config.tagData :: L :: hi :: lo :: (payload ++ rest) ∧ m = dataMessage (joinId hi lo) L payload ∧
      k = 4 + L.toNat) := by
  obtain hb | ⟨t, x, y, rest, rfl⟩ := bytes_short_or_cons b
  · simp [decodeFrame, Config.minDecode, hb] at h
  · rw [decodeFrame_cons] at h
    by_cases h1 : t = Config.tagData
    · rw [if_pos h1] at h
      cases rest with
      | nil => simp at h
      | cons z more =>
        simp only at h
        split_ifs at h with h3 h4
        injection h with hm hk
        refine .inr ⟨x, y, z, more.take x.toNat, more.drop x.toNat, by simp; omega, by omega, ?_, hm.symm, hk.symm⟩
        simp [h1]
    · rw [if_neg h1] at h
      split_ifs at h with h2
      injection h with hm hk
      exact .inl ⟨x, y, rest, by rw [h2], hm.symm, hk.symm⟩

/-- What an Invalid verdict tells of the buffer (R118, R124): it is not empty. -/
theorem decodeFrame_invalid {b : Bytes} {r : Reason} (h : decodeFrame b = .invalid r) :
    ∃ t x y rest, b = t :: x :: y :: rest := by
  obtain hb | hb := bytes_short_or_cons b
  · simp [decodeFrame, Config.minDecode, hb] at h
  · exact hb

/-- What an Incomplete verdict tells of the buffer (R116, R117). -/
theorem decodeFrame_incomplete {b : Bytes} (h : decodeFrame b = .incomplete) :
    b.length < 3 ∨ ∃ L rest, b = Config.tagData :: L :: rest ∧ rest.length < 2 + L.toNat := by
  obtain hb | ⟨t, x, y, rest, rfl⟩ := bytes_short_or_cons b
  · exact .inl hb
  · rw [decodeFrame_cons] at h
    by_cases h1 : t = Config.tagData
    · rw [if_pos h1] at h
      refine .inr ⟨x, y :: rest, by rw [h1], ?_⟩
      cases rest with
      | nil => simp; omega
      | cons z more =>
        simp only at h
        split_ifs at h with h3
        simp; omega
    · rw [if_neg h1] at h
      split_ifs at h

/-! ## Messages the decoder makes -/

/-- The meaningful payload of a whole data frame is the frame's (R119). -/
theorem dataMessage_payload (c : Half) (L : Byte) (payload : Bytes) (h : payload.length = L.toNat)
    (hL : L.toNat ≤ 8) : (dataMessage c L payload).payload = payload := by
  have ht : payload.take L.toNat = payload := List.take_of_length_le (by omega)
  have hp := pad8_take payload L.toNat h hL
  simp only [Message.payload, dataMessage, Bool.false_eq_true, if_false, ht, hp]

/-- The message of a whole data frame is canonical (R120). -/
theorem dataMessage_canonical (c : Half) (L : Byte) (payload : Bytes) (h : payload.length = L.toNat)
    (hL : L.toNat ≤ 8) : (dataMessage c L payload).canonical = true := by
  have ht : payload.take L.toNat = payload := List.take_of_length_le (by omega)
  have hp := pad8_take payload L.toNat h hL
  simp [Message.canonical, Message.encodable, Message.payload, dataMessage, Config.maxDlen, hL, ht, hp]

/-- The message of a remote frame is canonical (R120). -/
theorem remoteMessage_canonical (c : Half) : (remoteMessage c).canonical = true := by
  simp [Message.canonical, Message.encodable, Message.payload, remoteMessage]

/-- A canonical data message is the message of its own fields. -/
theorem canonical_data (m : Message) (hr : m.rtr = false) (h : m.canonical = true) :
    dataMessage m.cobId m.len m.payload = m := by
  obtain ⟨c, r, l, d⟩ := m
  simp only at hr
  subst hr
  simp [Message.canonical, Message.encodable, Message.payload, Config.maxDlen] at h
  simp only [dataMessage, Message.payload, Bool.false_eq_true, if_false, List.take_take, Nat.min_self]
  rw [← h.2]

/-- A canonical remote message is the message of its identifier. -/
theorem canonical_remote (m : Message) (hr : m.rtr = true) (h : m.canonical = true) :
    remoteMessage m.cobId = m := by
  obtain ⟨c, r, l, d⟩ := m
  simp only at hr
  subst hr
  simp [Message.canonical, Message.encodable, Message.payload] at h
  simp [remoteMessage, h]

/-- Every message DECODE delivers is canonical (R120). -/
theorem decodeFrame_canonical {b : Bytes} {m : Message} {k : Nat} (h : decodeFrame b = .complete m k) :
    m.canonical = true := by
  obtain ⟨hi, lo, rest, _, rfl, _⟩ | ⟨L, hi, lo, p, rest, hp, hL, _, rfl, _⟩ := decodeFrame_complete h
  · exact remoteMessage_canonical _
  · exact dataMessage_canonical _ _ _ hp hL

end Sys2Proof
end

