-- ==== Sys2Proof/Laws/State.lean ====
section
/-! SUPPORT. One lemma per field per update of State, so that no later proof unfolds a record update. -/

namespace Sys2Proof.Machine

/-! ## Register and buffer updates -/

@[simp] theorem report_cap (s : State) (c : Option Cause) : (s.report c).cap = s.cap := rfl
@[simp] theorem report_sess (s : State) (c : Option Cause) : (s.report c).sess = s.sess := rfl
@[simp] theorem report_rbuf (s : State) (c : Option Cause) : (s.report c).rbuf = s.rbuf := rfl
@[simp] theorem report_rxmsg (s : State) (c : Option Cause) : (s.report c).rxmsg = s.rxmsg := rfl
@[simp] theorem report_status (s : State) (c : Option Cause) : (s.report c).status = statusOf c := rfl
@[simp] theorem report_fsm (s : State) (c : Option Cause) : (s.report c).fsm = s.fsm := rfl
@[simp] theorem report_wrTimer (s : State) (c : Option Cause) : (s.report c).wrTimer = s.wrTimer := rfl
@[simp] theorem report_rdTimer (s : State) (c : Option Cause) : (s.report c).rdTimer = s.rdTimer := rfl
@[simp] theorem report_host (s : State) (c : Option Cause) : (s.report c).host = s.host := rfl
@[simp] theorem report_env (s : State) (c : Option Cause) : (s.report c).env = s.env := rfl
@[simp] theorem report_call (s : State) (c : Option Cause) : (s.report c).call = s.call := rfl
@[simp] theorem report_draws (s : State) (c : Option Cause) : (s.report c).draws = s.draws := rfl
@[simp] theorem report_drawCount (s : State) (c : Option Cause) : (s.report c).drawCount = s.drawCount := rfl
@[simp] theorem report_pending (s : State) (c : Option Cause) : (s.report c).pending = s.pending := rfl
@[simp] theorem report_result (s : State) (c : Option Cause) : (s.report c).result = s.result := rfl
@[simp] theorem report_hist (s : State) (c : Option Cause) : (s.report c).hist = s.hist := rfl

@[simp] theorem rbufAppend_cap (c : Bytes) (s : State) : (rbufAppend c s).cap = s.cap := rfl
@[simp] theorem rbufAppend_sess (c : Bytes) (s : State) : (rbufAppend c s).sess = s.sess := rfl
@[simp] theorem rbufAppend_rbuf (c : Bytes) (s : State) : (rbufAppend c s).rbuf = s.rbuf ++ c := rfl
@[simp] theorem rbufAppend_rxmsg (c : Bytes) (s : State) : (rbufAppend c s).rxmsg = s.rxmsg := rfl
@[simp] theorem rbufAppend_status (c : Bytes) (s : State) : (rbufAppend c s).status = s.status := rfl
@[simp] theorem rbufAppend_fsm (c : Bytes) (s : State) : (rbufAppend c s).fsm = s.fsm := rfl
@[simp] theorem rbufAppend_wrTimer (c : Bytes) (s : State) : (rbufAppend c s).wrTimer = s.wrTimer := rfl
@[simp] theorem rbufAppend_rdTimer (c : Bytes) (s : State) : (rbufAppend c s).rdTimer = s.rdTimer := rfl
@[simp] theorem rbufAppend_host (c : Bytes) (s : State) : (rbufAppend c s).host = s.host := rfl
@[simp] theorem rbufAppend_env (c : Bytes) (s : State) : (rbufAppend c s).env = s.env := rfl
@[simp] theorem rbufAppend_call (c : Bytes) (s : State) : (rbufAppend c s).call = s.call := rfl
@[simp] theorem rbufAppend_draws (c : Bytes) (s : State) : (rbufAppend c s).draws = s.draws := rfl
@[simp] theorem rbufAppend_drawCount (c : Bytes) (s : State) : (rbufAppend c s).drawCount = s.drawCount := rfl
@[simp] theorem rbufAppend_pending (c : Bytes) (s : State) : (rbufAppend c s).pending = s.pending := rfl
@[simp] theorem rbufAppend_result (c : Bytes) (s : State) : (rbufAppend c s).result = s.result := rfl
@[simp] theorem rbufAppend_hist (c : Bytes) (s : State) : (rbufAppend c s).hist = { s.hist with rxAll := s.hist.rxAll ++ c } := rfl

@[simp] theorem rbufTrim_cap (k : Nat) (s : State) : (rbufTrim k s).cap = s.cap := rfl
@[simp] theorem rbufTrim_sess (k : Nat) (s : State) : (rbufTrim k s).sess = s.sess := rfl
@[simp] theorem rbufTrim_rbuf (k : Nat) (s : State) : (rbufTrim k s).rbuf = s.rbuf.drop k := rfl
@[simp] theorem rbufTrim_rxmsg (k : Nat) (s : State) : (rbufTrim k s).rxmsg = s.rxmsg := rfl
@[simp] theorem rbufTrim_status (k : Nat) (s : State) : (rbufTrim k s).status = s.status := rfl
@[simp] theorem rbufTrim_fsm (k : Nat) (s : State) : (rbufTrim k s).fsm = s.fsm := rfl
@[simp] theorem rbufTrim_wrTimer (k : Nat) (s : State) : (rbufTrim k s).wrTimer = s.wrTimer := rfl
@[simp] theorem rbufTrim_rdTimer (k : Nat) (s : State) : (rbufTrim k s).rdTimer = s.rdTimer := rfl
@[simp] theorem rbufTrim_host (k : Nat) (s : State) : (rbufTrim k s).host = s.host := rfl
@[simp] theorem rbufTrim_env (k : Nat) (s : State) : (rbufTrim k s).env = s.env := rfl
@[simp] theorem rbufTrim_call (k : Nat) (s : State) : (rbufTrim k s).call = s.call := rfl
@[simp] theorem rbufTrim_draws (k : Nat) (s : State) : (rbufTrim k s).draws = s.draws := rfl
@[simp] theorem rbufTrim_drawCount (k : Nat) (s : State) : (rbufTrim k s).drawCount = s.drawCount := rfl
@[simp] theorem rbufTrim_pending (k : Nat) (s : State) : (rbufTrim k s).pending = s.pending := rfl
@[simp] theorem rbufTrim_result (k : Nat) (s : State) : (rbufTrim k s).result = s.result := rfl
@[simp] theorem rbufTrim_hist (k : Nat) (s : State) : (rbufTrim k s).hist = s.hist := rfl

@[simp] theorem recordGroups_cap (s : State) (gs : List Group) : (s.recordGroups gs).cap = s.cap := rfl
@[simp] theorem recordGroups_sess (s : State) (gs : List Group) : (s.recordGroups gs).sess = s.sess := rfl
@[simp] theorem recordGroups_rbuf (s : State) (gs : List Group) : (s.recordGroups gs).rbuf = s.rbuf := rfl
@[simp] theorem recordGroups_rxmsg (s : State) (gs : List Group) : (s.recordGroups gs).rxmsg = s.rxmsg := rfl
@[simp] theorem recordGroups_status (s : State) (gs : List Group) : (s.recordGroups gs).status = s.status := rfl
@[simp] theorem recordGroups_fsm (s : State) (gs : List Group) : (s.recordGroups gs).fsm = s.fsm := rfl
@[simp] theorem recordGroups_wrTimer (s : State) (gs : List Group) : (s.recordGroups gs).wrTimer = s.wrTimer := rfl
@[simp] theorem recordGroups_rdTimer (s : State) (gs : List Group) : (s.recordGroups gs).rdTimer = s.rdTimer := rfl
@[simp] theorem recordGroups_host (s : State) (gs : List Group) : (s.recordGroups gs).host = s.host := rfl
@[simp] theorem recordGroups_env (s : State) (gs : List Group) : (s.recordGroups gs).env = s.env := rfl
@[simp] theorem recordGroups_call (s : State) (gs : List Group) : (s.recordGroups gs).call = s.call := rfl
@[simp] theorem recordGroups_draws (s : State) (gs : List Group) : (s.recordGroups gs).draws = s.draws := rfl
@[simp] theorem recordGroups_drawCount (s : State) (gs : List Group) : (s.recordGroups gs).drawCount = s.drawCount := rfl
@[simp] theorem recordGroups_pending (s : State) (gs : List Group) : (s.recordGroups gs).pending = s.pending := rfl
@[simp] theorem recordGroups_result (s : State) (gs : List Group) : (s.recordGroups gs).result = s.result := rfl
@[simp] theorem recordGroups_hist (s : State) (gs : List Group) : (s.recordGroups gs).hist = { s.hist with groups := s.hist.groups ++ gs } := rfl

@[simp] theorem dropOne_cap (s : State) : (dropOne s).cap = s.cap := rfl
@[simp] theorem dropOne_sess (s : State) : (dropOne s).sess = s.sess := rfl
@[simp] theorem dropOne_rbuf (s : State) : (dropOne s).rbuf = s.rbuf.drop 1 := rfl
@[simp] theorem dropOne_rxmsg (s : State) : (dropOne s).rxmsg = s.rxmsg := rfl
@[simp] theorem dropOne_status (s : State) : (dropOne s).status = s.status := rfl
@[simp] theorem dropOne_fsm (s : State) : (dropOne s).fsm = s.fsm := rfl
@[simp] theorem dropOne_wrTimer (s : State) : (dropOne s).wrTimer = s.wrTimer := rfl
@[simp] theorem dropOne_rdTimer (s : State) : (dropOne s).rdTimer = s.rdTimer := rfl
@[simp] theorem dropOne_host (s : State) : (dropOne s).host = s.host := rfl
@[simp] theorem dropOne_env (s : State) : (dropOne s).env = s.env := rfl
@[simp] theorem dropOne_call (s : State) : (dropOne s).call = s.call := rfl
@[simp] theorem dropOne_draws (s : State) : (dropOne s).draws = s.draws := rfl
@[simp] theorem dropOne_drawCount (s : State) : (dropOne s).drawCount = s.drawCount := rfl
@[simp] theorem dropOne_pending (s : State) : (dropOne s).pending = s.pending := rfl
@[simp] theorem dropOne_result (s : State) : (dropOne s).result = s.result := rfl
@[simp] theorem dropOne_hist (s : State) : (dropOne s).hist = { s.hist with groups := s.hist.groups ++ (s.rbuf.take 1).map .dropped } := rfl

@[simp] theorem toIdle_cap (s : State) : (s.toIdle).cap = s.cap := rfl
@[simp] theorem toIdle_sess (s : State) : (s.toIdle).sess = s.sess := rfl
@[simp] theorem toIdle_rbuf (s : State) : (s.toIdle).rbuf = s.rbuf := rfl
@[simp] theorem toIdle_rxmsg (s : State) : (s.toIdle).rxmsg = s.rxmsg := rfl
@[simp] theorem toIdle_status (s : State) : (s.toIdle).status = s.status := rfl
@[simp] theorem toIdle_fsm (s : State) : (s.toIdle).fsm = .idle := rfl
@[simp] theorem toIdle_wrTimer (s : State) : (s.toIdle).wrTimer = none := rfl
@[simp] theorem toIdle_rdTimer (s : State) : (s.toIdle).rdTimer = none := rfl
@[simp] theorem toIdle_host (s : State) : (s.toIdle).host = s.host := rfl
@[simp] theorem toIdle_env (s : State) : (s.toIdle).env = s.env := rfl
@[simp] theorem toIdle_call (s : State) : (s.toIdle).call = none := rfl
@[simp] theorem toIdle_draws (s : State) : (s.toIdle).draws = s.draws := rfl
@[simp] theorem toIdle_drawCount (s : State) : (s.toIdle).drawCount = s.drawCount := rfl
@[simp] theorem toIdle_pending (s : State) : (s.toIdle).pending = s.pending := rfl
@[simp] theorem toIdle_result (s : State) : (s.toIdle).result = s.result := rfl
@[simp] theorem toIdle_hist (s : State) : (s.toIdle).hist = s.hist := rfl

@[simp] theorem resetBlock_cap (s : State) : (resetBlock s).cap = s.cap := rfl
@[simp] theorem resetBlock_sess (s : State) : (resetBlock s).sess = .closed := rfl
@[simp] theorem resetBlock_rbuf (s : State) : (resetBlock s).rbuf = [] := rfl
@[simp] theorem resetBlock_rxmsg (s : State) : (resetBlock s).rxmsg = zeroMsg := rfl
@[simp] theorem resetBlock_status (s : State) : (resetBlock s).status = Config.statusOk := rfl
@[simp] theorem resetBlock_fsm (s : State) : (resetBlock s).fsm = .idle := rfl
@[simp] theorem resetBlock_wrTimer (s : State) : (resetBlock s).wrTimer = none := rfl
@[simp] theorem resetBlock_rdTimer (s : State) : (resetBlock s).rdTimer = none := rfl
@[simp] theorem resetBlock_host (s : State) : (resetBlock s).host = s.host := rfl
@[simp] theorem resetBlock_env (s : State) : (resetBlock s).env = s.env := rfl
@[simp] theorem resetBlock_call (s : State) : (resetBlock s).call = none := rfl
@[simp] theorem resetBlock_draws (s : State) : (resetBlock s).draws = s.draws := rfl
@[simp] theorem resetBlock_drawCount (s : State) : (resetBlock s).drawCount = s.drawCount := rfl
@[simp] theorem resetBlock_pending (s : State) : (resetBlock s).pending = s.pending := rfl
@[simp] theorem resetBlock_result (s : State) : (resetBlock s).result = s.result := rfl
@[simp] theorem resetBlock_hist (s : State) : (resetBlock s).hist = s.hist := rfl

@[simp] theorem load_cap (s : State) (p : HostPort) (rest : List HostReq) : (s.load p rest).cap = s.cap := rfl
@[simp] theorem load_sess (s : State) (p : HostPort) (rest : List HostReq) : (s.load p rest).sess = s.sess := rfl
@[simp] theorem load_rbuf (s : State) (p : HostPort) (rest : List HostReq) : (s.load p rest).rbuf = s.rbuf := rfl
@[simp] theorem load_rxmsg (s : State) (p : HostPort) (rest : List HostReq) : (s.load p rest).rxmsg = s.rxmsg := rfl
@[simp] theorem load_status (s : State) (p : HostPort) (rest : List HostReq) : (s.load p rest).status = s.status := rfl
@[simp] theorem load_fsm (s : State) (p : HostPort) (rest : List HostReq) : (s.load p rest).fsm = s.fsm := rfl
@[simp] theorem load_wrTimer (s : State) (p : HostPort) (rest : List HostReq) : (s.load p rest).wrTimer = s.wrTimer := rfl
@[simp] theorem load_rdTimer (s : State) (p : HostPort) (rest : List HostReq) : (s.load p rest).rdTimer = s.rdTimer := rfl
@[simp] theorem load_host (s : State) (p : HostPort) (rest : List HostReq) : (s.load p rest).host = p := rfl
@[simp] theorem load_env (s : State) (p : HostPort) (rest : List HostReq) : (s.load p rest).env = s.env := rfl
@[simp] theorem load_call (s : State) (p : HostPort) (rest : List HostReq) : (s.load p rest).call = s.call := rfl
@[simp] theorem load_draws (s : State) (p : HostPort) (rest : List HostReq) : (s.load p rest).draws = s.draws := rfl
@[simp] theorem load_drawCount (s : State) (p : HostPort) (rest : List HostReq) : (s.load p rest).drawCount = s.drawCount := rfl
@[simp] theorem load_pending (s : State) (p : HostPort) (rest : List HostReq) : (s.load p rest).pending = rest := rfl
@[simp] theorem load_result (s : State) (p : HostPort) (rest : List HostReq) : (s.load p rest).result = s.result := rfl
@[simp] theorem load_hist (s : State) (p : HostPort) (rest : List HostReq) : (s.load p rest).hist = s.hist := rfl

@[simp] theorem answer_cap (s : State) (a : Answer) : (s.answer a).cap = s.cap := rfl
@[simp] theorem answer_sess (s : State) (a : Answer) : (s.answer a).sess = s.sess := rfl
@[simp] theorem answer_rbuf (s : State) (a : Answer) : (s.answer a).rbuf = s.rbuf := rfl
@[simp] theorem answer_rxmsg (s : State) (a : Answer) : (s.answer a).rxmsg = s.rxmsg := rfl
@[simp] theorem answer_status (s : State) (a : Answer) : (s.answer a).status = s.status := rfl
@[simp] theorem answer_fsm (s : State) (a : Answer) : (s.answer a).fsm = s.fsm := rfl
@[simp] theorem answer_wrTimer (s : State) (a : Answer) : (s.answer a).wrTimer = s.wrTimer := rfl
@[simp] theorem answer_rdTimer (s : State) (a : Answer) : (s.answer a).rdTimer = s.rdTimer := rfl
@[simp] theorem answer_host (s : State) (a : Answer) : (s.answer a).host = s.host := rfl
@[simp] theorem answer_env (s : State) (a : Answer) : (s.answer a).env = s.env := rfl
@[simp] theorem answer_call (s : State) (a : Answer) : (s.answer a).call = s.call := rfl
@[simp] theorem answer_draws (s : State) (a : Answer) : (s.answer a).draws = s.draws := rfl
@[simp] theorem answer_drawCount (s : State) (a : Answer) : (s.answer a).drawCount = s.drawCount := rfl
@[simp] theorem answer_pending (s : State) (a : Answer) : (s.answer a).pending = s.pending := rfl
@[simp] theorem answer_result (s : State) (a : Answer) : (s.answer a).result = a := rfl
@[simp] theorem answer_hist (s : State) (a : Answer) : (s.answer a).hist = s.hist := rfl

/-! ## How a command ends -/

@[simp] theorem finish_state (c : Option Cause) (s : State) : (finish c s).state = s.toIdle.report c := rfl
@[simp] theorem finish_cause (c : Option Cause) (s : State) : (finish c s).cause = c := rfl
@[simp] theorem succeed_state (s : State) : (succeed s).state = s.toIdle.report none := rfl
@[simp] theorem succeed_cause (s : State) : (succeed s).cause = none := rfl
@[simp] theorem raise_state (c : Cause) (s : State) : (raise c s).state = s.toIdle.report (some c) := rfl
@[simp] theorem raise_cause (c : Cause) (s : State) : (raise c s).cause = some c := rfl
@[simp] theorem noMessage_state (c : Cause) (s : State) :
    (noMessage c s).state = ({ s with rxmsg := zeroMsg } : State).toIdle.report (some c) := rfl
@[simp] theorem noMessage_cause (c : Cause) (s : State) : (noMessage c s).cause = some c := rfl
@[simp] theorem deliver_state (m : Message) (k : Nat) (s : State) :
    (deliver m k s).state = ({ rbufTrim k (s.recordGroups [.frame (s.rbuf.take k) m]) with rxmsg := m } : State).toIdle.report none := rfl
@[simp] theorem deliver_cause (m : Message) (k : Nat) (s : State) : (deliver m k s).cause = none := rfl
@[simp] theorem statusOf_none : statusOf none = Config.statusOk := rfl
@[simp] theorem statusOf_some (c : Cause) : statusOf (some c) = Config.statusFail := rfl

/-! ## The state machine -/

@[simp] theorem enter_cap (f : Fsm) (s : State) : (enter f s).cap = s.cap := rfl
@[simp] theorem enter_sess (f : Fsm) (s : State) : (enter f s).sess = s.sess := rfl
@[simp] theorem enter_rbuf (f : Fsm) (s : State) : (enter f s).rbuf = s.rbuf := rfl
@[simp] theorem enter_rxmsg (f : Fsm) (s : State) : (enter f s).rxmsg = s.rxmsg := rfl
@[simp] theorem enter_status (f : Fsm) (s : State) : (enter f s).status = s.status := rfl
@[simp] theorem enter_fsm (f : Fsm) (s : State) : (enter f s).fsm = f := rfl
@[simp] theorem enter_wrTimer (f : Fsm) (s : State) : (enter f s).wrTimer = none := rfl
@[simp] theorem enter_rdTimer (f : Fsm) (s : State) : (enter f s).rdTimer = none := rfl
@[simp] theorem enter_host (f : Fsm) (s : State) : (enter f s).host = s.host := rfl
@[simp] theorem enter_env (f : Fsm) (s : State) : (enter f s).env = s.env := rfl
@[simp] theorem enter_call (f : Fsm) (s : State) : (enter f s).call = none := rfl
@[simp] theorem enter_draws (f : Fsm) (s : State) : (enter f s).draws = s.draws := rfl
@[simp] theorem enter_drawCount (f : Fsm) (s : State) : (enter f s).drawCount = s.drawCount := rfl
@[simp] theorem enter_pending (f : Fsm) (s : State) : (enter f s).pending = s.pending := rfl
@[simp] theorem enter_result (f : Fsm) (s : State) : (enter f s).result = s.result := rfl
@[simp] theorem enter_hist (f : Fsm) (s : State) : (enter f s).hist = s.hist := rfl

@[simp] theorem endSession_cap (s : State) : (endSession s).cap = s.cap := rfl
@[simp] theorem endSession_sess (s : State) : (endSession s).sess = .closed := rfl
@[simp] theorem endSession_rbuf (s : State) : (endSession s).rbuf = [] := by simp [endSession, State.rlen]
@[simp] theorem endSession_rxmsg (s : State) : (endSession s).rxmsg = s.rxmsg := rfl
@[simp] theorem endSession_status (s : State) : (endSession s).status = s.status := rfl
@[simp] theorem endSession_fsm (s : State) : (endSession s).fsm = s.fsm := rfl
@[simp] theorem endSession_wrTimer (s : State) : (endSession s).wrTimer = s.wrTimer := rfl
@[simp] theorem endSession_rdTimer (s : State) : (endSession s).rdTimer = s.rdTimer := rfl
@[simp] theorem endSession_host (s : State) : (endSession s).host = s.host := rfl
@[simp] theorem endSession_env (s : State) : (endSession s).env = s.env := rfl
@[simp] theorem endSession_call (s : State) : (endSession s).call = s.call := rfl
@[simp] theorem endSession_draws (s : State) : (endSession s).draws = s.draws := rfl
@[simp] theorem endSession_drawCount (s : State) : (endSession s).drawCount = s.drawCount := rfl
@[simp] theorem endSession_pending (s : State) : (endSession s).pending = s.pending := rfl
@[simp] theorem endSession_result (s : State) : (endSession s).result = s.result := rfl
@[simp] theorem endSession_hist (s : State) : (endSession s).hist = s.hist := rfl

@[simp] theorem tickOnce_cap (d : Draw) (s : State) : (tickOnce d s).cap = s.cap := rfl
@[simp] theorem tickOnce_sess (d : Draw) (s : State) : (tickOnce d s).sess = s.sess := rfl
@[simp] theorem tickOnce_rbuf (d : Draw) (s : State) : (tickOnce d s).rbuf = s.rbuf := rfl
@[simp] theorem tickOnce_rxmsg (d : Draw) (s : State) : (tickOnce d s).rxmsg = s.rxmsg := rfl
@[simp] theorem tickOnce_status (d : Draw) (s : State) : (tickOnce d s).status = s.status := rfl
@[simp] theorem tickOnce_fsm (d : Draw) (s : State) : (tickOnce d s).fsm = s.fsm := rfl
@[simp] theorem tickOnce_wrTimer (d : Draw) (s : State) : (tickOnce d s).wrTimer = s.wrTimer.map (· - 1) := rfl
@[simp] theorem tickOnce_rdTimer (d : Draw) (s : State) : (tickOnce d s).rdTimer = s.rdTimer.map (· - 1) := rfl
@[simp] theorem tickOnce_host (d : Draw) (s : State) : (tickOnce d s).host = s.host := rfl
@[simp] theorem tickOnce_env (d : Draw) (s : State) : (tickOnce d s).env = s.env.pass 1 := rfl
@[simp] theorem tickOnce_call (d : Draw) (s : State) : (tickOnce d s).call = some { d with ticks := d.ticks - 1 } := rfl
@[simp] theorem tickOnce_draws (d : Draw) (s : State) : (tickOnce d s).draws = s.draws := rfl
@[simp] theorem tickOnce_drawCount (d : Draw) (s : State) : (tickOnce d s).drawCount = s.drawCount := rfl
@[simp] theorem tickOnce_pending (d : Draw) (s : State) : (tickOnce d s).pending = s.pending := rfl
@[simp] theorem tickOnce_result (d : Draw) (s : State) : (tickOnce d s).result = s.result := rfl
@[simp] theorem tickOnce_hist (d : Draw) (s : State) : (tickOnce d s).hist = s.hist := rfl

/-! ## Draws and transport calls -/

@[simp] theorem nextDraw_cap (s : State) : (s.nextDraw.2).cap = s.cap := by unfold State.nextDraw; split <;> rfl
@[simp] theorem nextDraw_sess (s : State) : (s.nextDraw.2).sess = s.sess := by unfold State.nextDraw; split <;> rfl
@[simp] theorem nextDraw_rbuf (s : State) : (s.nextDraw.2).rbuf = s.rbuf := by unfold State.nextDraw; split <;> rfl
@[simp] theorem nextDraw_rxmsg (s : State) : (s.nextDraw.2).rxmsg = s.rxmsg := by unfold State.nextDraw; split <;> rfl
@[simp] theorem nextDraw_status (s : State) : (s.nextDraw.2).status = s.status := by unfold State.nextDraw; split <;> rfl
@[simp] theorem nextDraw_fsm (s : State) : (s.nextDraw.2).fsm = s.fsm := by unfold State.nextDraw; split <;> rfl
@[simp] theorem nextDraw_wrTimer (s : State) : (s.nextDraw.2).wrTimer = s.wrTimer := by unfold State.nextDraw; split <;> rfl
@[simp] theorem nextDraw_rdTimer (s : State) : (s.nextDraw.2).rdTimer = s.rdTimer := by unfold State.nextDraw; split <;> rfl
@[simp] theorem nextDraw_host (s : State) : (s.nextDraw.2).host = s.host := by unfold State.nextDraw; split <;> rfl
@[simp] theorem nextDraw_env (s : State) : (s.nextDraw.2).env = s.env := by unfold State.nextDraw; split <;> rfl
@[simp] theorem nextDraw_call (s : State) : (s.nextDraw.2).call = s.call := by unfold State.nextDraw; split <;> rfl
@[simp] theorem nextDraw_pending (s : State) : (s.nextDraw.2).pending = s.pending := by unfold State.nextDraw; split <;> rfl
@[simp] theorem nextDraw_result (s : State) : (s.nextDraw.2).result = s.result := by unfold State.nextDraw; split <;> rfl
@[simp] theorem nextDraw_hist (s : State) : (s.nextDraw.2).hist = s.hist := by unfold State.nextDraw; split <;> rfl

@[simp] theorem beginCall_cap (f : Fsm) (wr rd : Option Nat) (s : State) : (beginCall f wr rd s).cap = s.cap := by simp [beginCall]
@[simp] theorem beginCall_sess (f : Fsm) (wr rd : Option Nat) (s : State) : (beginCall f wr rd s).sess = s.sess := by simp [beginCall]
@[simp] theorem beginCall_rbuf (f : Fsm) (wr rd : Option Nat) (s : State) : (beginCall f wr rd s).rbuf = s.rbuf := by simp [beginCall]
@[simp] theorem beginCall_rxmsg (f : Fsm) (wr rd : Option Nat) (s : State) : (beginCall f wr rd s).rxmsg = s.rxmsg := by simp [beginCall]
@[simp] theorem beginCall_status (f : Fsm) (wr rd : Option Nat) (s : State) : (beginCall f wr rd s).status = s.status := by simp [beginCall]
@[simp] theorem beginCall_fsm (f : Fsm) (wr rd : Option Nat) (s : State) : (beginCall f wr rd s).fsm = f := by simp [beginCall]
@[simp] theorem beginCall_wrTimer (f : Fsm) (wr rd : Option Nat) (s : State) : (beginCall f wr rd s).wrTimer = wr := by simp [beginCall]
@[simp] theorem beginCall_rdTimer (f : Fsm) (wr rd : Option Nat) (s : State) : (beginCall f wr rd s).rdTimer = rd := by simp [beginCall]
@[simp] theorem beginCall_host (f : Fsm) (wr rd : Option Nat) (s : State) : (beginCall f wr rd s).host = s.host := by simp [beginCall]
@[simp] theorem beginCall_env (f : Fsm) (wr rd : Option Nat) (s : State) : (beginCall f wr rd s).env = s.env := by simp [beginCall]
@[simp] theorem beginCall_call (f : Fsm) (wr rd : Option Nat) (s : State) : (beginCall f wr rd s).call = some s.nextDraw.1 := by simp [beginCall]
@[simp] theorem beginCall_draws (f : Fsm) (wr rd : Option Nat) (s : State) : (beginCall f wr rd s).draws = s.nextDraw.2.draws := by simp [beginCall]
@[simp] theorem beginCall_drawCount (f : Fsm) (wr rd : Option Nat) (s : State) : (beginCall f wr rd s).drawCount = s.nextDraw.2.drawCount := by simp [beginCall]
@[simp] theorem beginCall_pending (f : Fsm) (wr rd : Option Nat) (s : State) : (beginCall f wr rd s).pending = s.pending := by simp [beginCall]
@[simp] theorem beginCall_result (f : Fsm) (wr rd : Option Nat) (s : State) : (beginCall f wr rd s).result = s.result := by simp [beginCall]
@[simp] theorem beginCall_hist (f : Fsm) (wr rd : Option Nat) (s : State) : (beginCall f wr rd s).hist = s.hist := by simp [beginCall]

@[simp] theorem callOpen_cap (dev baud : Nat) (s : State) : (callOpen dev baud s |>.2).cap = s.cap := by simp [callOpen]
@[simp] theorem callOpen_sess (dev baud : Nat) (s : State) : (callOpen dev baud s |>.2).sess = s.sess := by simp [callOpen]
@[simp] theorem callOpen_rbuf (dev baud : Nat) (s : State) : (callOpen dev baud s |>.2).rbuf = s.rbuf := by simp [callOpen]
@[simp] theorem callOpen_rxmsg (dev baud : Nat) (s : State) : (callOpen dev baud s |>.2).rxmsg = s.rxmsg := by simp [callOpen]
@[simp] theorem callOpen_status (dev baud : Nat) (s : State) : (callOpen dev baud s |>.2).status = s.status := by simp [callOpen]
@[simp] theorem callOpen_fsm (dev baud : Nat) (s : State) : (callOpen dev baud s |>.2).fsm = s.fsm := by simp [callOpen]
@[simp] theorem callOpen_wrTimer (dev baud : Nat) (s : State) : (callOpen dev baud s |>.2).wrTimer = s.wrTimer := by simp [callOpen]
@[simp] theorem callOpen_rdTimer (dev baud : Nat) (s : State) : (callOpen dev baud s |>.2).rdTimer = s.rdTimer := by simp [callOpen]
@[simp] theorem callOpen_host (dev baud : Nat) (s : State) : (callOpen dev baud s |>.2).host = s.host := by simp [callOpen]
@[simp] theorem callOpen_call (dev baud : Nat) (s : State) : (callOpen dev baud s |>.2).call = s.call := by simp [callOpen]
@[simp] theorem callOpen_draws (dev baud : Nat) (s : State) : (callOpen dev baud s |>.2).draws = s.nextDraw.2.draws := by simp [callOpen]
@[simp] theorem callOpen_drawCount (dev baud : Nat) (s : State) : (callOpen dev baud s |>.2).drawCount = s.nextDraw.2.drawCount := by simp [callOpen]
@[simp] theorem callOpen_pending (dev baud : Nat) (s : State) : (callOpen dev baud s |>.2).pending = s.pending := by simp [callOpen]
@[simp] theorem callOpen_result (dev baud : Nat) (s : State) : (callOpen dev baud s |>.2).result = s.result := by simp [callOpen]
@[simp] theorem callOpen_hist (dev baud : Nat) (s : State) : (callOpen dev baud s |>.2).hist = s.hist := by simp [callOpen]

@[simp] theorem callWrite_cap (bytes : Bytes) (ms : Nat) (s : State) : (callWrite bytes ms s |>.2).cap = s.cap := by simp [callWrite]
@[simp] theorem callWrite_sess (bytes : Bytes) (ms : Nat) (s : State) : (callWrite bytes ms s |>.2).sess = s.sess := by simp [callWrite]
@[simp] theorem callWrite_rbuf (bytes : Bytes) (ms : Nat) (s : State) : (callWrite bytes ms s |>.2).rbuf = s.rbuf := by simp [callWrite]
@[simp] theorem callWrite_rxmsg (bytes : Bytes) (ms : Nat) (s : State) : (callWrite bytes ms s |>.2).rxmsg = s.rxmsg := by simp [callWrite]
@[simp] theorem callWrite_status (bytes : Bytes) (ms : Nat) (s : State) : (callWrite bytes ms s |>.2).status = s.status := by simp [callWrite]
@[simp] theorem callWrite_fsm (bytes : Bytes) (ms : Nat) (s : State) : (callWrite bytes ms s |>.2).fsm = s.fsm := by simp [callWrite]
@[simp] theorem callWrite_wrTimer (bytes : Bytes) (ms : Nat) (s : State) : (callWrite bytes ms s |>.2).wrTimer = s.wrTimer := by simp [callWrite]
@[simp] theorem callWrite_rdTimer (bytes : Bytes) (ms : Nat) (s : State) : (callWrite bytes ms s |>.2).rdTimer = s.rdTimer := by simp [callWrite]
@[simp] theorem callWrite_host (bytes : Bytes) (ms : Nat) (s : State) : (callWrite bytes ms s |>.2).host = s.host := by simp [callWrite]
@[simp] theorem callWrite_call (bytes : Bytes) (ms : Nat) (s : State) : (callWrite bytes ms s |>.2).call = s.call := by simp [callWrite]
@[simp] theorem callWrite_draws (bytes : Bytes) (ms : Nat) (s : State) : (callWrite bytes ms s |>.2).draws = s.nextDraw.2.draws := by simp [callWrite]
@[simp] theorem callWrite_drawCount (bytes : Bytes) (ms : Nat) (s : State) : (callWrite bytes ms s |>.2).drawCount = s.nextDraw.2.drawCount := by simp [callWrite]
@[simp] theorem callWrite_pending (bytes : Bytes) (ms : Nat) (s : State) : (callWrite bytes ms s |>.2).pending = s.pending := by simp [callWrite]
@[simp] theorem callWrite_result (bytes : Bytes) (ms : Nat) (s : State) : (callWrite bytes ms s |>.2).result = s.result := by simp [callWrite]
@[simp] theorem callWrite_hist (bytes : Bytes) (ms : Nat) (s : State) : (callWrite bytes ms s |>.2).hist = s.hist := by simp [callWrite]

@[simp] theorem callWait_cap (ms : Nat) (s : State) : (callWait ms s |>.2).cap = s.cap := by simp [callWait]
@[simp] theorem callWait_sess (ms : Nat) (s : State) : (callWait ms s |>.2).sess = s.sess := by simp [callWait]
@[simp] theorem callWait_rbuf (ms : Nat) (s : State) : (callWait ms s |>.2).rbuf = s.rbuf := by simp [callWait]
@[simp] theorem callWait_rxmsg (ms : Nat) (s : State) : (callWait ms s |>.2).rxmsg = s.rxmsg := by simp [callWait]
@[simp] theorem callWait_status (ms : Nat) (s : State) : (callWait ms s |>.2).status = s.status := by simp [callWait]
@[simp] theorem callWait_fsm (ms : Nat) (s : State) : (callWait ms s |>.2).fsm = s.fsm := by simp [callWait]
@[simp] theorem callWait_wrTimer (ms : Nat) (s : State) : (callWait ms s |>.2).wrTimer = s.wrTimer := by simp [callWait]
@[simp] theorem callWait_rdTimer (ms : Nat) (s : State) : (callWait ms s |>.2).rdTimer = s.rdTimer := by simp [callWait]
@[simp] theorem callWait_host (ms : Nat) (s : State) : (callWait ms s |>.2).host = s.host := by simp [callWait]
@[simp] theorem callWait_call (ms : Nat) (s : State) : (callWait ms s |>.2).call = s.call := by simp [callWait]
@[simp] theorem callWait_draws (ms : Nat) (s : State) : (callWait ms s |>.2).draws = s.nextDraw.2.draws := by simp [callWait]
@[simp] theorem callWait_drawCount (ms : Nat) (s : State) : (callWait ms s |>.2).drawCount = s.nextDraw.2.drawCount := by simp [callWait]
@[simp] theorem callWait_pending (ms : Nat) (s : State) : (callWait ms s |>.2).pending = s.pending := by simp [callWait]
@[simp] theorem callWait_result (ms : Nat) (s : State) : (callWait ms s |>.2).result = s.result := by simp [callWait]
@[simp] theorem callWait_hist (ms : Nat) (s : State) : (callWait ms s |>.2).hist = s.hist := by simp [callWait]

@[simp] theorem callAvailable_cap (s : State) : (callAvailable s |>.2).cap = s.cap := by simp [callAvailable]
@[simp] theorem callAvailable_sess (s : State) : (callAvailable s |>.2).sess = s.sess := by simp [callAvailable]
@[simp] theorem callAvailable_rbuf (s : State) : (callAvailable s |>.2).rbuf = s.rbuf := by simp [callAvailable]
@[simp] theorem callAvailable_rxmsg (s : State) : (callAvailable s |>.2).rxmsg = s.rxmsg := by simp [callAvailable]
@[simp] theorem callAvailable_status (s : State) : (callAvailable s |>.2).status = s.status := by simp [callAvailable]
@[simp] theorem callAvailable_fsm (s : State) : (callAvailable s |>.2).fsm = s.fsm := by simp [callAvailable]
@[simp] theorem callAvailable_wrTimer (s : State) : (callAvailable s |>.2).wrTimer = s.wrTimer := by simp [callAvailable]
@[simp] theorem callAvailable_rdTimer (s : State) : (callAvailable s |>.2).rdTimer = s.rdTimer := by simp [callAvailable]
@[simp] theorem callAvailable_host (s : State) : (callAvailable s |>.2).host = s.host := by simp [callAvailable]
@[simp] theorem callAvailable_call (s : State) : (callAvailable s |>.2).call = s.call := by simp [callAvailable]
@[simp] theorem callAvailable_draws (s : State) : (callAvailable s |>.2).draws = s.nextDraw.2.draws := by simp [callAvailable]
@[simp] theorem callAvailable_drawCount (s : State) : (callAvailable s |>.2).drawCount = s.nextDraw.2.drawCount := by simp [callAvailable]
@[simp] theorem callAvailable_pending (s : State) : (callAvailable s |>.2).pending = s.pending := by simp [callAvailable]
@[simp] theorem callAvailable_result (s : State) : (callAvailable s |>.2).result = s.result := by simp [callAvailable]
@[simp] theorem callAvailable_hist (s : State) : (callAvailable s |>.2).hist = s.hist := by simp [callAvailable]

@[simp] theorem callRead_cap (max ms : Nat) (s : State) : (callRead max ms s |>.2).cap = s.cap := by simp [callRead]
@[simp] theorem callRead_sess (max ms : Nat) (s : State) : (callRead max ms s |>.2).sess = s.sess := by simp [callRead]
@[simp] theorem callRead_rbuf (max ms : Nat) (s : State) : (callRead max ms s |>.2).rbuf = s.rbuf := by simp [callRead]
@[simp] theorem callRead_rxmsg (max ms : Nat) (s : State) : (callRead max ms s |>.2).rxmsg = s.rxmsg := by simp [callRead]
@[simp] theorem callRead_status (max ms : Nat) (s : State) : (callRead max ms s |>.2).status = s.status := by simp [callRead]
@[simp] theorem callRead_fsm (max ms : Nat) (s : State) : (callRead max ms s |>.2).fsm = s.fsm := by simp [callRead]
@[simp] theorem callRead_wrTimer (max ms : Nat) (s : State) : (callRead max ms s |>.2).wrTimer = s.wrTimer := by simp [callRead]
@[simp] theorem callRead_rdTimer (max ms : Nat) (s : State) : (callRead max ms s |>.2).rdTimer = s.rdTimer := by simp [callRead]
@[simp] theorem callRead_host (max ms : Nat) (s : State) : (callRead max ms s |>.2).host = s.host := by simp [callRead]
@[simp] theorem callRead_call (max ms : Nat) (s : State) : (callRead max ms s |>.2).call = s.call := by simp [callRead]
@[simp] theorem callRead_draws (max ms : Nat) (s : State) : (callRead max ms s |>.2).draws = s.nextDraw.2.draws := by simp [callRead]
@[simp] theorem callRead_drawCount (max ms : Nat) (s : State) : (callRead max ms s |>.2).drawCount = s.nextDraw.2.drawCount := by simp [callRead]
@[simp] theorem callRead_pending (max ms : Nat) (s : State) : (callRead max ms s |>.2).pending = s.pending := by simp [callRead]
@[simp] theorem callRead_result (max ms : Nat) (s : State) : (callRead max ms s |>.2).result = s.result := by simp [callRead]
@[simp] theorem callRead_hist (max ms : Nat) (s : State) : (callRead max ms s |>.2).hist = s.hist := by simp [callRead]

@[simp] theorem callClose_cap (s : State) : (callClose s).cap = s.cap := by simp [callClose]
@[simp] theorem callClose_sess (s : State) : (callClose s).sess = s.sess := by simp [callClose]
@[simp] theorem callClose_rbuf (s : State) : (callClose s).rbuf = s.rbuf := by simp [callClose]
@[simp] theorem callClose_rxmsg (s : State) : (callClose s).rxmsg = s.rxmsg := by simp [callClose]
@[simp] theorem callClose_status (s : State) : (callClose s).status = s.status := by simp [callClose]
@[simp] theorem callClose_fsm (s : State) : (callClose s).fsm = s.fsm := by simp [callClose]
@[simp] theorem callClose_wrTimer (s : State) : (callClose s).wrTimer = s.wrTimer := by simp [callClose]
@[simp] theorem callClose_rdTimer (s : State) : (callClose s).rdTimer = s.rdTimer := by simp [callClose]
@[simp] theorem callClose_host (s : State) : (callClose s).host = s.host := by simp [callClose]
@[simp] theorem callClose_env (s : State) : (callClose s).env = (s.env.pass s.nextDraw.1.ticks).closePort := by simp [callClose]
@[simp] theorem callClose_call (s : State) : (callClose s).call = s.call := by simp [callClose]
@[simp] theorem callClose_draws (s : State) : (callClose s).draws = s.nextDraw.2.draws := by simp [callClose]
@[simp] theorem callClose_drawCount (s : State) : (callClose s).drawCount = s.nextDraw.2.drawCount := by simp [callClose]
@[simp] theorem callClose_pending (s : State) : (callClose s).pending = s.pending := by simp [callClose]
@[simp] theorem callClose_result (s : State) : (callClose s).result = s.result := by simp [callClose]
@[simp] theorem callClose_hist (s : State) : (callClose s).hist = s.hist := by simp [callClose]

end Sys2Proof.Machine
end

