-- ==== Sys2Proof/Laws/Transport.lean ====
section
/-! SUPPORT. What the line and each transport primitive can do to the environment, said once per field, and the
calls with their draw taken apart. -/

namespace Sys2Proof.Machine

/-! ## The line -/

@[simp] theorem pass_dev (n : Nat) (e : Env) : (e.pass n).dev = e.dev := rfl
@[simp] theorem pass_rxq (n : Nat) (e : Env) : (e.pass n).rxq = e.rxq := rfl
@[simp] theorem pass_wireTx (n : Nat) (e : Env) : (e.pass n).wireTx = e.wireTx := rfl
@[simp] theorem pass_txHeld (n : Nat) (e : Env) : (e.pass n).txHeld = e.txHeld := rfl
@[simp] theorem pass_commErr (n : Nat) (e : Env) : (e.pass n).commErr = e.commErr := rfl
@[simp] theorem pass_clock (n : Nat) (e : Env) : (e.pass n).clock = e.clock + n := rfl
@[simp] theorem pass_zero (e : Env) : e.pass 0 = e := rfl
theorem pass_pass (m n : Nat) (e : Env) : (e.pass m).pass n = e.pass (m + n) := by
  simp [Env.pass, Nat.add_assoc]

@[simp] theorem advance_dev (d : Draw) (e : Env) : (e.advance d).dev = e.dev := by
  unfold Env.advance; split
  · rfl
  · split <;> rfl
@[simp] theorem advance_wireTx (d : Draw) (e : Env) : (e.advance d).wireTx = e.wireTx := by
  unfold Env.advance; split
  · rfl
  · split <;> rfl
@[simp] theorem advance_clock (d : Draw) (e : Env) : (e.advance d).clock = e.clock := by
  unfold Env.advance; split
  · rfl
  · split <;> rfl

theorem advance_closed (d : Draw) (e : Env) (h : e.dev = .closed) : e.advance d = e := by
  simp [Env.advance, h]

/-- Without an event on the line bytes arrive and leave, and nothing else happens. -/
theorem advance_clean (d : Draw) (e : Env) (cfg : SerialConfig) (h : e.dev = .opened cfg)
    (hc : d.event = none) :
    e.advance d = { e with rxq := e.rxq ++ d.arrivals, txHeld := e.txHeld.drop d.drained } := by
  simp [Env.advance, h, hc]

/-- Time passing and the line's activity do not disturb each other. -/
theorem advance_pass (d : Draw) (n : Nat) (e : Env) : (e.pass n).advance d = (e.advance d).pass n := by
  unfold Env.advance
  simp only [pass_dev]
  split
  · rfl
  · split <;> rfl

/-- What an advance looks at of a draw: its ticks do not matter. -/
theorem advance_ticks (d : Draw) (n : Nat) (e : Env) : e.advance { d with ticks := n } = e.advance d := rfl

/-! ## The primitives -/

@[simp] theorem closePort_eq (e : Env) :
    e.closePort = ⟨.closed, [], e.wireTx, [], false, e.clock⟩ := rfl

/-- `T.write` takes at most what it is given. -/
theorem acceptedCount_le (n : Nat) (x : Bool) (d : Draw) (e : Env) : e.acceptedCount n x d ≤ n := by
  unfold Env.acceptedCount; split <;> omega

/-- A `T.write` whose bound has expired, or that meets a communication error, takes fewer bytes than it is given. -/
theorem acceptedCount_lt {n : Nat} {x : Bool} {d : Draw} {e : Env} (hn : 0 < n) (h : x = true ∨ e.commErr = true) :
    e.acceptedCount n x d < n := by
  unfold Env.acceptedCount; rw [if_pos (by simpa using h)]; omega

/-- `T.read` returns at most what it is asked for. -/
theorem chunkSize_le (n : Nat) (d : Draw) (e : Env) : e.chunkSize n d ≤ n ∧ e.chunkSize n d ≤ e.rxq.length := by
  unfold Env.chunkSize; split <;> omega

theorem read_length (n : Nat) (d : Draw) (e : Env) : (e.read n d).1.length ≤ n := by
  have := chunkSize_le n d (e.advance d)
  simp [Env.read]; omega

@[simp] theorem read_wireTx (n : Nat) (d : Draw) (e : Env) : (e.read n d).2.wireTx = e.wireTx := by simp [Env.read]
@[simp] theorem read_dev (n : Nat) (d : Draw) (e : Env) : (e.read n d).2.dev = e.dev := by simp [Env.read]
@[simp] theorem read_clock (n : Nat) (d : Draw) (e : Env) : (e.read n d).2.clock = e.clock := by simp [Env.read]
@[simp] theorem waitReadable_wireTx (x : Bool) (d : Draw) (e : Env) :
    (e.waitReadable x d).2.wireTx = e.wireTx := by simp [Env.waitReadable]
@[simp] theorem waitReadable_dev (x : Bool) (d : Draw) (e : Env) : (e.waitReadable x d).2.dev = e.dev := by
  simp [Env.waitReadable]
@[simp] theorem waitReadable_clock (x : Bool) (d : Draw) (e : Env) :
    (e.waitReadable x d).2.clock = e.clock := by simp [Env.waitReadable]
@[simp] theorem available_wireTx (d : Draw) (e : Env) : (e.available d).2.wireTx = e.wireTx := by simp [Env.available]
@[simp] theorem available_dev (d : Draw) (e : Env) : (e.available d).2.dev = e.dev := by simp [Env.available]
@[simp] theorem available_clock (d : Draw) (e : Env) : (e.available d).2.clock = e.clock := by simp [Env.available]
@[simp] theorem write_dev (b : Bytes) (x : Bool) (d : Draw) (e : Env) : (e.write b x d).2.dev = e.dev := by simp [Env.write]
@[simp] theorem write_clock (b : Bytes) (x : Bool) (d : Draw) (e : Env) : (e.write b x d).2.clock = e.clock := by simp [Env.write]
@[simp] theorem openPort_wireTx (x y : Nat) (d : Draw) (e : Env) : (e.openPort x y d).2.wireTx = e.wireTx := by
  unfold Env.openPort; split <;> simp [Env.purge]

/-- `T.write` puts a prefix of its bytes on the wire. -/
theorem write_wireTx (b : Bytes) (x : Bool) (d : Draw) (e : Env) :
    (e.write b x d).2.wireTx = e.wireTx ++ b.take (e.write b x d).1 := by simp [Env.write]

/-- `T.open` that answers ok leaves an open device. -/
theorem openPort_isOpen (x y : Nat) (d : Draw) (e : Env) (h : (e.openPort x y d).1 = true) :
    (e.openPort x y d).2.dev.isOpen = true := by
  unfold Env.openPort at *; split at h <;> simp_all [Dev.isOpen]

/-! ## The calls -/

/-- The draw a call takes and the state the call starts from. -/
theorem nextDraw_eq (s : State) :
    s.nextDraw.2 = { s with draws := s.nextDraw.2.draws, drawCount := s.nextDraw.2.drawCount } := by
  unfold State.nextDraw; split <;> rfl

/-- A draw does not depend on the fields it does not read, and taking it leaves them. -/
theorem nextDraw_congr (s t : State) (h : s.draws = t.draws) (hc : s.drawCount = t.drawCount) :
    s.nextDraw.1 = t.nextDraw.1 ∧ s.nextDraw.2.draws = t.nextDraw.2.draws ∧
      s.nextDraw.2.drawCount = t.nextDraw.2.drawCount := by
  unfold State.nextDraw; rw [h, hc]; split <;> simp_all

theorem callWrite_eq (b : Bytes) (ms : Nat) (s : State) :
    callWrite b ms s =
      (((s.env.pass (min s.nextDraw.1.ticks ms)).write b (ms ≤ s.nextDraw.1.ticks) s.nextDraw.1).1,
       { s.nextDraw.2 with
         env := ((s.env.pass (min s.nextDraw.1.ticks ms)).write b (ms ≤ s.nextDraw.1.ticks) s.nextDraw.1).2 }) := by
  simp [callWrite]

theorem callWait_eq (ms : Nat) (s : State) :
    callWait ms s =
      (((s.env.pass (min s.nextDraw.1.ticks ms)).waitReadable (ms ≤ s.nextDraw.1.ticks) s.nextDraw.1).1,
       { s.nextDraw.2 with
         env := ((s.env.pass (min s.nextDraw.1.ticks ms)).waitReadable (ms ≤ s.nextDraw.1.ticks) s.nextDraw.1).2 }) := by
  simp [callWait]

theorem callAvailable_eq (s : State) :
    callAvailable s = ((s.env.available s.nextDraw.1).1,
      { s.nextDraw.2 with env := (s.env.available s.nextDraw.1).2 }) := by
  simp [callAvailable]

theorem callRead_eq (n ms : Nat) (s : State) :
    callRead n ms s =
      (((s.env.pass (min s.nextDraw.1.ticks ms)).read n s.nextDraw.1).1,
       { s.nextDraw.2 with env := ((s.env.pass (min s.nextDraw.1.ticks ms)).read n s.nextDraw.1).2 }) := by
  simp [callRead]

theorem callOpen_eq (x y : Nat) (s : State) :
    callOpen x y s =
      (((s.env.pass s.nextDraw.1.ticks).openPort x y s.nextDraw.1).1,
       { s.nextDraw.2 with env := ((s.env.pass s.nextDraw.1.ticks).openPort x y s.nextDraw.1).2 }) := by
  simp [callOpen]

theorem callClose_eq (s : State) :
    callClose s = { s.nextDraw.2 with env := (s.env.pass s.nextDraw.1.ticks).closePort } := by
  simp [callClose]

/-! ## Clean calls: an open device, nothing pending of an error, a draw already decided without a line event -/

theorem callWait_clean {s : State} {d : Draw} {ds : List Draw} {cfg : SerialConfig} (ms : Nat)
    (hd : s.draws = d :: ds) (ho : s.env.dev = .opened cfg) (he : s.env.commErr = false)
    (hc : cleanDraw d = true) :
    callWait ms s = (d.accept && !decide (ms ≤ d.ticks),
      { s with
        draws := ds
        env := ⟨.opened cfg, s.env.rxq ++ d.arrivals, s.env.wireTx, s.env.txHeld.drop d.drained, false,
          s.env.clock + min d.ticks ms⟩ }) := by
  have h : d.event = none := by simpa [cleanDraw] using hc
  have n : s.nextDraw = (d, { s with draws := ds }) := by simp [State.nextDraw, hd]
  simp only [callWait, n, Env.waitReadable, advance_pass, advance_clean d s.env cfg ho h]
  simp [Env.pass, he, ho]

theorem callAvailable_clean {s : State} {d : Draw} {ds : List Draw} {cfg : SerialConfig}
    (hd : s.draws = d :: ds) (ho : s.env.dev = .opened cfg) (hc : cleanDraw d = true) :
    callAvailable s = ((s.env.rxq ++ d.arrivals).length,
      { s with
        draws := ds
        env := ⟨.opened cfg, s.env.rxq ++ d.arrivals, s.env.wireTx, s.env.txHeld.drop d.drained, s.env.commErr,
          s.env.clock⟩ }) := by
  have h : d.event = none := by simpa [cleanDraw] using hc
  have n : s.nextDraw = (d, { s with draws := ds }) := by simp [State.nextDraw, hd]
  simp [callAvailable, n, Env.available, advance_clean d s.env cfg ho h, ho]

theorem callRead_clean {s : State} {d : Draw} {ds : List Draw} {cfg : SerialConfig} (size ms : Nat)
    (hd : s.draws = d :: ds) (ho : s.env.dev = .opened cfg) (he : s.env.commErr = false)
    (hc : cleanDraw d = true) :
    callRead size ms s =
      ((s.env.rxq ++ d.arrivals).take (min d.moves (min size (s.env.rxq ++ d.arrivals).length)),
        { s with
          draws := ds
          env := ⟨.opened cfg, (s.env.rxq ++ d.arrivals).drop (min d.moves (min size (s.env.rxq ++ d.arrivals).length)),
            s.env.wireTx, s.env.txHeld.drop d.drained, false, s.env.clock + min d.ticks ms⟩ }) := by
  have h : d.event = none := by simpa [cleanDraw] using hc
  have n : s.nextDraw = (d, { s with draws := ds }) := by simp [State.nextDraw, hd]
  simp only [callRead, n, Env.read, advance_pass, advance_clean d s.env cfg ho h, Env.chunkSize]
  simp [Env.pass, he, ho]

end Sys2Proof.Machine
end

