-- ==== Sys2Proof/Laws/Commands.lean ====
section
/-! SUPPORT. Everything a command's shared parts can do, one lemma each: what RECV does after its first DECODE, what
the second DECODE does, and the six commands as cases. -/

namespace Sys2Proof.Machine

/-- `s` after transport calls that touched only the environment and the draws. -/
def moved (s : State) (e : Env) (ds : List Draw) (n : Nat) : State :=
  { s with env := e, draws := ds, drawCount := n }

@[simp] theorem moved_cap (s : State) (e : Env) (ds : List Draw) (n : Nat) : (moved s e ds n).cap = s.cap := rfl
@[simp] theorem moved_sess (s : State) (e : Env) (ds : List Draw) (n : Nat) : (moved s e ds n).sess = s.sess := rfl
@[simp] theorem moved_rbuf (s : State) (e : Env) (ds : List Draw) (n : Nat) : (moved s e ds n).rbuf = s.rbuf := rfl
@[simp] theorem moved_rxmsg (s : State) (e : Env) (ds : List Draw) (n : Nat) : (moved s e ds n).rxmsg = s.rxmsg := rfl
@[simp] theorem moved_status (s : State) (e : Env) (ds : List Draw) (n : Nat) :
    (moved s e ds n).status = s.status := rfl
@[simp] theorem moved_fsm (s : State) (e : Env) (ds : List Draw) (n : Nat) : (moved s e ds n).fsm = s.fsm := rfl
@[simp] theorem moved_host (s : State) (e : Env) (ds : List Draw) (n : Nat) : (moved s e ds n).host = s.host := rfl
@[simp] theorem moved_env (s : State) (e : Env) (ds : List Draw) (n : Nat) : (moved s e ds n).env = e := rfl
@[simp] theorem moved_pending (s : State) (e : Env) (ds : List Draw) (n : Nat) :
    (moved s e ds n).pending = s.pending := rfl
@[simp] theorem moved_hist (s : State) (e : Env) (ds : List Draw) (n : Nat) : (moved s e ds n).hist = s.hist := rfl
@[simp] theorem moved_moved (s : State) (e f : Env) (ds es : List Draw) (m n : Nat) :
    moved (moved s e ds m) f es n = moved s f es n := rfl

/-- The calls only move the environment and the draws. -/
theorem callWait_moved (ms : Nat) (s : State) :
    (callWait ms s).2 = moved s (callWait ms s).2.env s.nextDraw.2.draws s.nextDraw.2.drawCount := by
  rw [callWait_eq, nextDraw_eq]; rfl

theorem callAvailable_moved (s : State) :
    (callAvailable s).2 = moved s (callAvailable s).2.env s.nextDraw.2.draws s.nextDraw.2.drawCount := by
  rw [callAvailable_eq, nextDraw_eq]; rfl

theorem callRead_moved (n ms : Nat) (s : State) :
    (callRead n ms s).2 = moved s (callRead n ms s).2.env s.nextDraw.2.draws s.nextDraw.2.drawCount := by
  rw [callRead_eq, nextDraw_eq]; rfl

theorem callWrite_moved (b : Bytes) (ms : Nat) (s : State) :
    (callWrite b ms s).2 = moved s (callWrite b ms s).2.env s.nextDraw.2.draws s.nextDraw.2.drawCount := by
  rw [callWrite_eq, nextDraw_eq]; rfl

theorem callOpen_moved (x y : Nat) (s : State) :
    (callOpen x y s).2 = moved s (callOpen x y s).2.env s.nextDraw.2.draws s.nextDraw.2.drawCount := by
  rw [callOpen_eq, nextDraw_eq]; rfl

theorem callClose_moved (s : State) :
    callClose s = moved s (callClose s).env s.nextDraw.2.draws s.nextDraw.2.drawCount := by
  rw [callClose_eq, nextDraw_eq]; rfl

/-- The environment keeps what RECV may not touch, and time goes on by at most `ms`. -/
structure QuietFrom (ms : Nat) (e f : Env) : Prop where
  wireTx : f.wireTx = e.wireTx
  dev : f.dev = e.dev
  later : e.clock ≤ f.clock
  within : f.clock ≤ e.clock + ms

theorem QuietFrom.trans {m n : Nat} {e f g : Env} (h : QuietFrom m e f) (k : QuietFrom n f g) :
    QuietFrom (m + n) e g :=
  ⟨k.wireTx.trans h.wireTx, k.dev.trans h.dev, h.later.trans k.later, by have := h.within; have := k.within; omega⟩

theorem callWait_quiet (ms : Nat) (s : State) : QuietFrom ms s.env (callWait ms s).2.env := by
  rw [callWait_eq]; constructor <;> simp

theorem callAvailable_quiet (s : State) : QuietFrom 0 s.env (callAvailable s).2.env := by
  rw [callAvailable_eq]; constructor <;> simp

theorem callRead_quiet (n ms : Nat) (s : State) : QuietFrom ms s.env (callRead n ms s).2.env := by
  rw [callRead_eq]; constructor <;> simp

theorem callRead_length (n ms : Nat) (s : State) : (callRead n ms s).1.length ≤ n := by
  rw [callRead_eq]; exact read_length _ _ _

/-- Everything RECV can do from step 2 on (R164 to R169): end with one of the three no-data causes and the buffer
as it is, or append a non-empty chunk of at most the request's size and decode again. -/
theorem recvWait_cases (s : State) :
    ∃ e ds n,
      (QuietFrom 500 s.env e ∧ recvWait s = noMessage .noDataTimeout (moved s e ds n)) ∨
      (QuietFrom 1000 s.env e ∧
        (recvWait s = noMessage .noDataEmpty (moved s e ds n) ∨
         recvWait s = noMessage .noDataZeroRead (moved s e ds n) ∨
         ∃ c, c ≠ [] ∧ c.length ≤ s.readRequest ∧
           recvWait s = decodeAgain (rbufAppend c (moved s e ds n)))) := by
  have h1 := callWait_moved Config.rdTimeoutMs s
  have q1 := callWait_quiet Config.rdTimeoutMs s
  generalize hw : callWait Config.rdTimeoutMs s = w at h1 q1
  have h2 := callAvailable_moved w.2
  have q2 := callAvailable_quiet w.2
  generalize ha : callAvailable w.2 = a at h2 q2
  have h3 := callRead_moved a.2.readRequest Config.rdTimeoutMs a.2
  have q3 := callRead_quiet a.2.readRequest Config.rdTimeoutMs a.2
  have l3 := callRead_length a.2.readRequest Config.rdTimeoutMs a.2
  generalize hr : callRead a.2.readRequest Config.rdTimeoutMs a.2 = r at h3 q3 l3
  obtain ⟨ds1, n1, e1⟩ : ∃ ds n, w.2 = moved s w.2.env ds n := ⟨_, _, h1⟩
  obtain ⟨ds2, n2, e2⟩ : ∃ ds n, a.2 = moved s a.2.env ds n := by
    rw [e1, moved_moved] at h2; exact ⟨_, _, h2⟩
  obtain ⟨ds3, n3, e3⟩ : ∃ ds n, r.2 = moved s r.2.env ds n := by
    rw [e2, moved_moved] at h3; exact ⟨_, _, h3⟩
  have q12 : QuietFrom 500 s.env a.2.env := q1.trans q2
  have q123 : QuietFrom 1000 s.env r.2.env := q12.trans q3
  by_cases hready : w.1 = true
  · by_cases hzero : a.1 = 0
    · refine ⟨a.2.env, ds2, n2, .inr ⟨⟨q12.wireTx, q12.dev, q12.later, by have := q12.within; omega⟩, .inl ?_⟩⟩
      simp only [recvWait, hw, if_pos hready, recvAvail, ha, if_pos hzero]
      rw [← e2]
    · by_cases hempty : r.1 = []
      · refine ⟨r.2.env, ds3, n3, .inr ⟨q123, .inr (.inl ?_)⟩⟩
        simp only [recvWait, hw, if_pos hready, recvAvail, ha, if_neg hzero, recvRead, hr, if_pos hempty]
        rw [← e3]
      · refine ⟨r.2.env, ds3, n3, .inr ⟨q123, .inr (.inr ⟨r.1, hempty, ?_, ?_⟩)⟩⟩
        · rw [e2] at l3; exact l3
        · simp only [recvWait, hw, if_pos hready, recvAvail, ha, if_neg hzero, recvRead, hr, if_neg hempty]
          rw [← e3]
  · refine ⟨w.2.env, ds1, n1, .inl ⟨q1, ?_⟩⟩
    simp only [recvWait, hw, if_neg hready]
    rw [← e1]

/-- Everything the second DECODE can do (R169, R170). -/
theorem decodeAgain_cases (s : State) :
    (∃ m k, decodeFrame s.rbuf = .complete m k ∧ decodeAgain s = deliver m k s) ∨
    (∃ r, decodeFrame s.rbuf = .invalid r ∧ decodeAgain s = noMessage (.noDataInvalid r) (dropOne s)) ∨
    (decodeFrame s.rbuf = .incomplete ∧ decodeAgain s = noMessage .noDataIncomplete s) := by
  unfold decodeAgain
  split
  · exact .inl ⟨_, _, ‹_›, rfl⟩
  · exact .inr (.inl ⟨_, ‹_›, rfl⟩)
  · exact .inr (.inr ⟨‹_›, rfl⟩)

/-- Everything RECV can do (R160). -/
theorem commandRecv_cases (s : State) :
    (s.sess = .closed ∧ commandRecv s = noMessage .notOpen s) ∨
    (s.sess = .opened ∧ ∃ m k, decodeFrame s.rbuf = .complete m k ∧ commandRecv s = deliver m k s) ∨
    (s.sess = .opened ∧ ∃ r, decodeFrame s.rbuf = .invalid r ∧ commandRecv s = recvWait (dropOne s)) ∨
    (s.sess = .opened ∧ decodeFrame s.rbuf = .incomplete ∧ commandRecv s = recvWait s) := by
  unfold commandRecv
  split
  · exact .inl ⟨‹_›, rfl⟩
  · right
    split
    · exact .inl ⟨‹_›, _, _, ‹_›, rfl⟩
    · exact .inr (.inl ⟨‹_›, _, ‹_›, rfl⟩)
    · exact .inr (.inr ⟨‹_›, ‹_›, rfl⟩)

/-- Everything SEND can do (R140). -/
theorem commandSend_cases (s : State) :
    (s.sess = .closed ∧ commandSend s = raise .notOpen s) ∨
    (s.sess = .opened ∧ s.sendOperandOk = false ∧ commandSend s = raise .badLen s) ∨
    (s.sess = .opened ∧ s.sendOperandOk = true ∧
      commandSend s = afterWrite (encodeMessage s.txmsg).length
        (callWrite (encodeMessage s.txmsg) Config.wrTimeoutMs s).1
        (callWrite (encodeMessage s.txmsg) Config.wrTimeoutMs s).2) := by
  unfold commandSend
  split
  · exact .inl ⟨‹_›, rfl⟩
  · right
    split
    · exact .inr ⟨‹_›, ‹_›, rfl⟩
    · exact .inl ⟨‹_›, by simp_all, rfl⟩

/-- Everything OPEN can do (R211). -/
theorem commandOpen_cases (s : State) :
    (s.sess = .opened ∧ commandOpen s = raise .alreadyOpen s) ∨
    (s.sess = .closed ∧ s.openOperandsOk = false ∧ commandOpen s = raise .config s) ∨
    (s.sess = .closed ∧ s.openOperandsOk = true ∧
      commandOpen s = afterOpen (callOpen s.host.port Config.baudDefault s).1
        (callOpen s.host.port Config.baudDefault s).2) := by
  unfold commandOpen
  split
  · exact .inl ⟨‹_›, rfl⟩
  · right
    split
    · exact .inr ⟨‹_›, ‹_›, rfl⟩
    · exact .inl ⟨‹_›, by simp_all, rfl⟩

/-- A command answers a next state exactly when the state machine is idle, and then its own. -/
theorem whenIdle_next {f : State → Finished} {s t : State} (h : whenIdle f s = .next t) :
    s.fsm = .idle ∧ t = (f s).state := by
  unfold whenIdle at h
  split at h
  · injection h with h; exact ⟨‹_›, h.symm⟩
  · cases h

theorem whenIdle_idle (f : State → Finished) {s : State} (h : s.fsm = .idle) :
    whenIdle f s = .next (f s).state := by simp [whenIdle, h]

theorem whenIdle_busy (f : State → Finished) {s : State} (h : s.fsm ≠ .idle) :
    whenIdle f s = .refused .commandInProgress := by simp [whenIdle, h]

/-- Appending what the read request allows keeps the buffer within its capacity (R54). -/
theorem memory_wf_append (cap : RbufCap) (b c : Bytes) (h : Memory.wf cap b = true)
    (hc : c.length ≤ readRequest cap b.length) : Memory.wf cap (b ++ c) = true := by
  cases cap with
  | finite n hn => simp [Memory.wf, readRequest] at *; omega
  | unbounded => rfl

/-- Trimming keeps the buffer within its capacity (R53). -/
theorem memory_wf_drop (cap : RbufCap) (b : Bytes) (k : Nat) (h : Memory.wf cap b = true) :
    Memory.wf cap (b.drop k) = true := by
  cases cap with
  | finite n hn => simp [Memory.wf] at *; omega
  | unbounded => rfl

theorem memory_wf_nil (cap : RbufCap) : Memory.wf cap [] = true := by cases cap <;> simp [Memory.wf]

theorem memory_wf_reset : Memory.wf State.reset.cap State.reset.rbuf = true := rfl

/-- Whether there is room depends on the capacity and the buffer only. -/
theorem hasRoom_congr {s t : State} (hc : s.cap = t.cap) (hb : s.rbuf = t.rbuf) : s.hasRoom = t.hasRoom := by
  unfold State.hasRoom State.rlen; rw [hc, hb]

/-- An Incomplete buffer has room: it is shorter than any capacity (R129, R180). -/
theorem hasRoom_incomplete {s : State} (h : decodeFrame s.rbuf = .incomplete) : s.hasRoom = true := by
  unfold State.hasRoom
  split
  · refine decide_eq_true (show s.rbuf.length < _ from ?_)
    obtain hb | ⟨L, rest, hb, hl⟩ := decodeFrame_incomplete h
    · omega
    · have := L.isLt
      rw [hb]; simp; omega
  · rfl

end Sys2Proof.Machine
end

