-- ==== Sys2Proof/Laws/Fsm.lean ====
section
/-! SUPPORT. The state machine's waiting, said once: while a transport call is in progress its timer and the call
count down together, and the call ends after the smaller of the two. -/

namespace Sys2Proof.Machine

/-- The state machine waits for a transport call: the states with a call in progress. -/
def Fsm.waits : Fsm → Bool
  | .sWrite | .rWait | .rRead | .oOpening | .cClosing => true
  | .idle | .sEncode | .rDecode1 | .rAvail | .rDecode2 => false

/-- The timer a waiting state looks at. -/
def State.waitTimer (s : State) : Option Nat :=
  match s.fsm with
  | .sWrite => s.wrTimer
  | .rWait | .rRead => s.rdTimer
  | .idle | .sEncode | .rDecode1 | .rAvail | .rDecode2 | .oOpening | .cClosing => none

/-- `n` ticks of a waiting state. -/
def ticked (n : Nat) (d : Draw) (s : State) : State :=
  { s with
    call := some { d with ticks := d.ticks - n }
    wrTimer := s.wrTimer.map (· - n)
    rdTimer := s.rdTimer.map (· - n)
    env := s.env.pass n }

/-- The transition that ends a waiting state's call. -/
def waitEnd (expired : Bool) (d : Draw) (s : State) : State :=
  match s.fsm with
  | .sWrite => writeEnds expired d s
  | .rWait => waitEnds expired d s
  | .rRead => readEnds expired d s
  | .oOpening => openEnds expired d s
  | .cClosing => closeEnds expired d s
  | .idle | .sEncode | .rDecode1 | .rAvail | .rDecode2 => s

theorem transitions_add (m n : Nat) (s : State) : transitions (m + n) s = transitions n (transitions m s) := by
  induction m generalizing s with
  | zero => simp [transitions]
  | succ m ih => rw [Nat.succ_add]; exact ih _

theorem transition_waits {s : State} (h : s.fsm.waits = true) :
    transition s = whileWaiting s.waitTimer waitEnd s := by
  unfold transition
  cases hf : s.fsm <;> simp [hf, Fsm.waits] at h ⊢ <;> unfold whileWaiting State.waitTimer <;> rw [hf] <;>
    simp only <;> split <;> (try rfl) <;> split <;> simp [waitEnd, hf]

/-- Ticks pass as long as neither the timer nor the call has run out. -/
theorem transitions_tick (n : Nat) : ∀ {s : State} {d : Draw}, s.fsm.waits = true → s.call = some d →
    n ≤ d.ticks → (∀ t, s.waitTimer = some t → n ≤ t) → transitions n s = ticked n d s := by
  induction n with
  | zero =>
    intro s d _ hc _ _
    have e : ∀ o : Option Nat, o.map (fun t => t) = o := fun o => by cases o <;> rfl
    simp only [transitions, ticked, e, pass_zero, Nat.sub_zero]
    rw [← hc]
  | succ n ih =>
    intro s d hw hc hd ht
    have h0 : ¬s.waitTimer = some 0 := fun h => by have := ht 0 h; omega
    have step1 : transition s = tickOnce d s := by
      rw [transition_waits hw]; unfold whileWaiting; rw [hc]; simp only
      rw [if_neg h0, if_neg (by omega)]
    have hw' : (tickOnce d s).fsm.waits = true := hw
    have ht' : ∀ t, (tickOnce d s).waitTimer = some t → n ≤ t := by
      intro t h
      have : (tickOnce d s).waitTimer = s.waitTimer.map (· - 1) := by
        unfold State.waitTimer tickOnce; simp only; split <;> rfl
      rw [this] at h
      obtain ⟨u, hu, rfl⟩ := Option.map_eq_some_iff.mp h
      have := ht u hu; omega
    show transitions n (transition s) = _
    rw [step1, ih hw' rfl (by show n ≤ d.ticks - 1; omega) ht']
    have e : ∀ o : Option Nat, (o.map (· - 1)).map (· - n) = o.map (· - (n + 1)) := by
      intro o; cases o <;> simp; omega
    simp only [ticked, tickOnce, e, pass_pass]
    rw [show d.ticks - 1 - n = d.ticks - (n + 1) by omega, Nat.add_comm 1 n]

/-- A waiting state under a timer: after the smaller of timer and call has run out, the call ends. -/
theorem transitions_wait {s : State} {d : Draw} {t : Nat} (hw : s.fsm.waits = true) (hc : s.call = some d)
    (ht : s.waitTimer = some t) :
    transitions (min d.ticks t + 1) s =
      waitEnd (decide (t ≤ d.ticks)) { d with ticks := d.ticks - min d.ticks t } (ticked (min d.ticks t) d s) := by
  have hrun := transitions_tick (min d.ticks t) hw hc (by omega)
    (fun u hu => by rw [ht] at hu; injection hu with hu; omega)
  rw [transitions_add, hrun]
  show transition _ = _
  have ht' : (ticked (min d.ticks t) d s).waitTimer = some (t - min d.ticks t) := by
    have : (ticked (min d.ticks t) d s).waitTimer = s.waitTimer.map (· - min d.ticks t) := by
      unfold State.waitTimer ticked; simp only; split <;> rfl
    rw [this, ht]; rfl
  rw [transition_waits (by exact hw), whileWaiting, ht']
  simp only [ticked, Option.some.injEq]
  by_cases h : t ≤ d.ticks
  · rw [if_pos (by omega), decide_eq_true h]
  · rw [if_neg (by omega), if_pos (by omega), decide_eq_false h]

/-- A waiting state without a timer: after the call has run out, it ends. -/
theorem transitions_open {s : State} {d : Draw} (hw : s.fsm.waits = true) (hc : s.call = some d)
    (ht : s.waitTimer = none) :
    transitions (d.ticks + 1) s = waitEnd false { d with ticks := 0 } (ticked d.ticks d s) := by
  have hrun := transitions_tick d.ticks hw hc (by omega) (fun u hu => by rw [ht] at hu; cases hu)
  rw [transitions_add, hrun]
  show transition _ = _
  have ht' : (ticked d.ticks d s).waitTimer = none := by
    have : (ticked d.ticks d s).waitTimer = s.waitTimer.map (· - d.ticks) := by
      unfold State.waitTimer ticked; simp only; split <;> rfl
    rw [this, ht]; rfl
  rw [transition_waits (by exact hw), whileWaiting, ht']
  simp only [ticked, Nat.sub_self]
  simp

/-- Until the call ends the state machine stays where it is. -/
theorem transitions_wait_fsm {s : State} {d : Draw} (n : Nat) (hw : s.fsm.waits = true) (hc : s.call = some d)
    (hd : n ≤ d.ticks) (ht : ∀ t, s.waitTimer = some t → n ≤ t) : (transitions n s).fsm = s.fsm := by
  rw [transitions_tick n hw hc hd ht]; rfl

end Sys2Proof.Machine
end

