-- ==== Sys2Proof/Laws/PerInstr.lean ====
section
/-! SUPPORT. Facts about every instruction as syntax, one lemma per constructor. -/

namespace Sys2Proof.Laws

/-- The encoder gives a code word exactly where the table has a bit pattern (30_encoding.md R97). -/
def CodeWordExists.Statement (i : Instr) : Prop := (encode i).isSome = i.hasPattern

theorem CodeWordExists.data (cobId : Half) (len : Byte) (payload : Bytes) :
    CodeWordExists.Statement (.data cobId len payload) := rfl
theorem CodeWordExists.remote (cobId : Half) : CodeWordExists.Statement (.remote cobId) := rfl
theorem CodeWordExists.badTag (tag : Byte) : CodeWordExists.Statement (.badTag tag) := rfl
theorem CodeWordExists.encode : CodeWordExists.Statement .encode := rfl
theorem CodeWordExists.decode : CodeWordExists.Statement .decode := rfl
theorem CodeWordExists.openCmd : CodeWordExists.Statement .openCmd := rfl
theorem CodeWordExists.closeCmd : CodeWordExists.Statement .closeCmd := rfl
theorem CodeWordExists.send : CodeWordExists.Statement .send := rfl
theorem CodeWordExists.recv : CodeWordExists.Statement .recv := rfl
theorem CodeWordExists.chbaud : CodeWordExists.Statement .chbaud := rfl
theorem CodeWordExists.cmdReserved (code : BitVec 3) : CodeWordExists.Statement (.cmdReserved code) := rfl
theorem CodeWordExists.tOpen (deviceId baudRate : Nat) :
    CodeWordExists.Statement (.tOpen deviceId baudRate) := rfl
theorem CodeWordExists.tClose : CodeWordExists.Statement .tClose := rfl
theorem CodeWordExists.tPurge : CodeWordExists.Statement .tPurge := rfl
theorem CodeWordExists.tWrite (bytes : Bytes) (timeoutMs : Nat) :
    CodeWordExists.Statement (.tWrite bytes timeoutMs) := rfl
theorem CodeWordExists.tWaitReadable (timeoutMs : Nat) :
    CodeWordExists.Statement (.tWaitReadable timeoutMs) := rfl
theorem CodeWordExists.tAvailable : CodeWordExists.Statement .tAvailable := rfl
theorem CodeWordExists.tRead (maxBytes timeoutMs : Nat) :
    CodeWordExists.Statement (.tRead maxBytes timeoutMs) := rfl

end Sys2Proof.Laws
end

