-- ==== Sys2Proof/Tests/Slice0.lean ====
section
/-! SUPPORT. Tests of the model, each on one small state, with results taken from 95_test_vectors.md and the rules
named; then, for each statement with hypotheses, a state that meets them. -/

namespace Sys2Proof.Machine.Tests

/-! ## Small states -/

/-- Some configuration of an open device. -/
def cfg : SerialConfig := ⟨1, 9600, 8, .noParity, 1, true, 0, 0⟩

/-- A closed session whose transport will give these answers. -/
def closedWith (draws : List Draw) : State := { State.reset with draws := draws }

/-- An open session with this buffer whose transport will give these answers. -/
def openWith (rbuf : Bytes) (draws : List Draw) : State :=
  { State.reset with sess := .opened, rbuf := rbuf, draws := draws, env := ⟨.opened cfg, [], [], [], false, 0⟩ }

/-- The host presents this message. -/
def presenting (m : Message) (s : State) : State := { s with host := { s.host with txmsg := m } }

/-- The host presents these operands of OPEN. -/
def operands (portOk : Bool) (port : Nat) (token : List Char) (s : State) : State :=
  { s with host := { s.host with portOk := portOk, port := port, baudOk := baudOkOf token } }

/-- The outcome is a next state with this property. -/
def next (o : Host.Outcome State Fault Refusal) (p : State → Bool) : Bool :=
  match o with
  | .next t => p t
  | .fault _ => false
  | .refused _ => false

/-- The outcome is this refusal. -/
def refusedWith (o : Host.Outcome State Fault Refusal) (r : Refusal) : Bool :=
  match o with
  | .next _ => false
  | .fault _ => false
  | .refused q => q == r

/-- The data frame message of S1. -/
def msgS1 : Message := ⟨0x123, false, 2, #v[0xAA, 0xBB, 0, 0, 0, 0, 0, 0]⟩
/-- The longest data frame's message (VE2). -/
def msgLong : Message := ⟨0x7FF, false, 8, #v[1, 2, 3, 4, 5, 6, 7, 8]⟩
/-- A remote message whose other fields are not zero (VE4). -/
def msgRemote : Message := ⟨0x181, true, 5, #v[0x11, 0x22, 0x33, 0x44, 0x55, 0, 0, 0]⟩
/-- A message outside the invariant (VE8). -/
def msgBad : Message := ⟨0, false, 9, #v[0, 0, 0, 0, 0, 0, 0, 0]⟩

/-- The transport signals readability after `n` ticks, and these bytes have arrived by then. -/
def ready (n : Nat) (arrived : Bytes) : Draw := { arrivals := arrived, ticks := n, accept := true }
/-- The transport hands over, or takes, up to `n` bytes. -/
def moving (n : Nat) : Draw := { moves := n }

/-! ## Well-formedness refuses each ill-formed term -/

theorem test_wf_data_long : (Instr.data 0 9 [1, 2, 3, 4, 5, 6, 7, 8, 9]).wf = false := by decide
theorem test_wf_data_count : (Instr.data 0x123 2 [0xAA]).wf = false := by decide
theorem test_wf_badTag_data : (Instr.badTag 0xE1).wf = false := by decide
theorem test_wf_badTag_remote : (Instr.badTag 0xD3).wf = false := by decide
theorem test_wf_cmdReserved : (Instr.cmdReserved 1).wf = false := by decide
theorem test_wf_tWrite_short : (Instr.tWrite [0xD3, 0] 1000).wf = false := by decide
theorem test_wf_tWrite_long : (Instr.tWrite [0, 0, 0, 0, 0, 0, 0, 0, 0, 0, 0, 0, 0] 1000).wf = false := by decide
theorem test_wf_tWrite_bound : (Instr.tWrite [0xD3, 0, 0] 500).wf = false := by decide
theorem test_wf_tWaitReadable_bound : (Instr.tWaitReadable 1000).wf = false := by decide
theorem test_wf_tRead_size : (Instr.tRead 3001 500).wf = false := by decide
theorem test_wf_tRead_bound : (Instr.tRead 3000 1000).wf = false := by decide
theorem test_wf_accepts : (Instr.data 0x7FF 8 [1, 2, 3, 4, 5, 6, 7, 8]).wf = true ∧
    (Instr.badTag 0xE0).wf = true ∧ (Instr.cmdReserved 7).wf = true ∧
    (Instr.tWrite [0xD3, 7, 0xFF] 1000).wf = true ∧ (Instr.tWaitReadable 500).wf = true ∧
    (Instr.tRead 3000 500).wf = true := by decide

/-! ## Words written out from the encodings (R81, R82, R87, R92) -/

theorem test_word_data : decode (.atCursor [0xE1, 0x02, 0x01, 0x23, 0xAA, 0xBB]) = .ok (.data 0x123 2 [0xAA, 0xBB]) := rfl
theorem test_word_data_id : decode (.atCursor [0xE1, 0x01, 0xFF, 0xFE, 0xE1]) = .ok (.data 0xFFFE 1 [0xE1]) := rfl
theorem test_word_remote : decode (.atCursor [0xD3, 0xE1, 0x00, 0x55]) = .ok (.remote 0xE100) := rfl
theorem test_word_badTag : decode (.atCursor [0xE2, 0x00, 0x00]) = .ok (.badTag 0xE2) := rfl
theorem test_word_short : decode (.atCursor [0xD3, 0x07]) = .error .incomplete := rfl
theorem test_word_badLen :
    decode (.atCursor [0xE1, 9, 0, 0, 1, 2, 3, 4, 5, 6, 7, 8, 9]) = .error .badLen := rfl
theorem test_word_openCmd : decode (.selector 1#3) = .ok .openCmd := rfl
theorem test_word_closeCmd : decode (.selector 2#3) = .ok .closeCmd := rfl
theorem test_word_send : decode (.selector 3#3) = .ok .send := rfl
theorem test_word_recv : decode (.selector 4#3) = .ok .recv := rfl
theorem test_word_chbaud : decode (.selector 5#3) = .ok .chbaud := rfl
theorem test_word_cmdReserved : decode (.selector 6#3) = .ok (.cmdReserved 6) := rfl
theorem test_table_word_remote : decodeTableWord 8 0xD3 = some (.remote 0) := by decide
theorem test_table_word_send : decodeTableWord 3 3 = some .send := by decide

/-! ## ENCODE and DECODE (VE and VD vectors) -/

theorem test_encode_longest : next (exec .encode (presenting msgLong State.reset)) (fun t =>
    t.result == .frame [0xE1, 8, 7, 0xFF, 1, 2, 3, 4, 5, 6, 7, 8]) = true := by decide
theorem test_encode_remote_ignores_len : next (exec .encode (presenting msgRemote State.reset)) (fun t =>
    t.result == .frame [0xD3, 0x01, 0x81]) = true := by decide
theorem test_decode_extension : next (exec .decode (openWith [0xE1, 2, 1, 0x23, 0xAA, 0xBB, 0xCC] [])) (fun t =>
    t.result == .verdict (.complete msgS1 6) && t.rbuf.length == 7) = true := by decide
set_option maxRecDepth 8000 in
theorem test_decode_longest_incomplete :
    decodeFrame (0xE1 :: 0xFF :: List.replicate 256 0) = .incomplete ∧
    decodeFrame (0xE1 :: 0xFF :: List.replicate 257 0) = .invalid .badLen := by decide

/-! ## Frames at the cursor (VR2, VR9, R118) -/

theorem test_data_delivers : next (exec (.data 0x123 2 [0xAA, 0xBB])
    (openWith [0xE1, 2, 1, 0x23, 0xAA, 0xBB, 0xD3] [])) (fun t =>
    t.rxmsg == msgS1 && t.rbuf == [0xD3] && t.status == 0) = true := by decide
theorem test_data_bad_length : next (exec (.data 0 9 [1, 2, 3, 4, 5, 6, 7, 8, 9])
    (openWith [0xE1, 9, 0, 0, 1, 2, 3, 4, 5, 6, 7, 8, 9] [])) (fun t =>
    t.rxmsg == zeroMsg && t.rbuf.length == 12) = true := by decide
theorem test_remote_delivers : next (exec (.remote 0x7FF) (openWith [0xD3, 7, 0xFF, 0xE1, 0] [])) (fun t =>
    t.rxmsg == ⟨0x7FF, true, 0, pad8 []⟩ && t.rbuf == [0xE1, 0]) = true := by decide
theorem test_badTag_drops_one : next (exec (.badTag 0) (openWith [0, 0xFF, 0xD3, 7, 0xFF] [])) (fun t =>
    t.rbuf == [0xFF, 0xD3, 7, 0xFF]) = true := by decide

/-! ## OPEN, CLOSE, CHBAUD, reserved selectors (VC vectors) -/

theorem test_open_ok : next (exec .openCmd (operands true 5 ['1', 'M'] (closedWith [{ accept := true }]))) (fun t =>
    t.sess == .opened && t.status == 0 && t.rbuf == [] && t.draws == []) = true := by decide
theorem test_open_token : next (exec .openCmd (operands true 5 ['1', 'm'] (closedWith [{ accept := true }]))) (fun t =>
    t.sess == .closed && t.status == 1 && t.draws.length == 1) = true := by decide
theorem test_close_open : next (exec .closeCmd (openWith [0xE1, 2] [])) (fun t =>
    t.sess == .closed && t.status == 0 && t.rbuf == [] && t.env.dev == .closed) = true := by decide
theorem test_close_closed : next (exec .closeCmd (closedWith [])) (fun t => t == closedWith []) = true := by decide
theorem test_chbaud : next (exec .chbaud (openWith [0xE1] [])) (fun t =>
    t == { openWith [0xE1] [] with status := 1 }) = true := by decide
theorem test_cmdReserved : next (exec (.cmdReserved 7) (openWith [0xE1] [])) (fun t =>
    t == { openWith [0xE1] [] with status := 1 }) = true := by decide

/-! ## SEND (VS5, VS3) -/

theorem test_send_short_write : next (exec .send (presenting msgS1 (openWith [] [moving 3]))) (fun t =>
    t.env.wireTx == [0xE1, 2, 1] && t.status == 1 && t.sess == .opened) = true := by decide
theorem test_send_bad_length : next (exec .send (presenting msgBad (openWith [] [moving 9]))) (fun t =>
    t.env.wireTx == [] && t.status == 1 && t.draws.length == 1) = true := by decide

/-! ## RECV (VR10, VR16) -/

/-- R144, R244: an expired bound is a short count. -/
theorem test_send_bound_expires : next (exec .send (presenting msgS1 (openWith [] [{ moves := 9, ticks := 1000 }])))
    (fun t => t.status == 1 && t.env.clock == 1000 && t.env.wireTx == [0xE1, 2, 1, 0x23, 0xAA]) = true := by decide
theorem test_recv_two_drops : next (exec .recv (openWith [0, 0xFF, 0x7E]
    [ready 3 [0xD3, 7, 0xFF], { }, moving 3])) (fun t =>
    t.rbuf == [0x7E, 0xD3, 7, 0xFF] && t.status == 1 && t.rxmsg == zeroMsg) = true := by decide
theorem test_recv_bad_length : next (exec .recv (openWith [0xE1, 9, 0xD3, 0, 5, 0, 0, 0, 0, 0, 0, 0]
    [ready 0 [0], { }, moving 9])) (fun t =>
    t.rbuf == [9, 0xD3, 0, 5, 0, 0, 0, 0, 0, 0, 0, 0] && t.status == 1) = true := by decide

/-! ## Transport primitives (R191 to R199) -/

theorem test_tOpen : next (exec (.tOpen 5 0) (closedWith [{ accept := true }])) (fun t =>
    t.result == .openResult true && t.env.dev.isOpen && t.sess == .closed) = true := by decide
theorem test_tClose : next (exec .tClose (openWith [1] [])) (fun t =>
    t.env.dev == .closed && t.rbuf == [1] && t.result == .closeDone) = true := by decide
theorem test_tPurge : next (exec .tPurge { openWith [1] [] with env := ⟨.opened cfg, [2], [3], [3], false, 0⟩ })
    (fun t => t.env == ⟨.opened cfg, [], [3], [], false, 0⟩ && t.rbuf == [1]) = true := by decide
theorem test_tWrite_prefix : next (exec (.tWrite [0xD3, 7, 0xFF] 1000) (openWith [] [moving 2])) (fun t =>
    t.env.wireTx == [0xD3, 7] && t.result == .written 2) = true := by decide
theorem test_tWrite_error : next (exec (.tWrite [0xD3, 7, 0xFF] 1000)
    (openWith [] [{ moves := 3, event := some (.commError []) }])) (fun t =>
    t.env.wireTx == [0xD3, 7] && t.result == .written 2) = true := by decide
theorem test_tWaitReadable_bound : next (exec (.tWaitReadable 500) (openWith [] [ready 500 [1]])) (fun t =>
    t.result == .readable false && t.env.rxq == [1] && t.env.clock == 500) = true := by decide
theorem test_tAvailable : next (exec .tAvailable (openWith [] [{ arrivals := [1, 2] }])) (fun t =>
    t.result == .count 2 && t.env.rxq == [1, 2]) = true := by decide
theorem test_tRead_size : next (exec (.tRead 2 500) (openWith [] [{ arrivals := [1, 2, 3], moves := 9 }])) (fun t =>
    t.result == .chunk [1, 2] && t.env.rxq == [3]) = true := by decide

/-! ## The step, hardware reset, the state machine -/

theorem test_step_remote_word : next (step (State.reset.withFetchWord 8 0xD3)) (fun t =>
    t.rxmsg == ⟨0, true, 0, pad8 []⟩ && t.status == 0) = true := by decide
theorem test_step_badTag_word : next (step (State.reset.withFetchWord 8 0x55)) (fun t =>
    t.hist.groups == [.dropped 0x55]) = true := by decide
theorem test_reset_truncates : next (step { presenting msgS1 (openWith [7] []) with
    fsm := .sWrite, wrTimer := some 9, call := some (moving 2), pending := [.reset] }) (fun t =>
    t.sess == .closed && t.rbuf == [] && t.fsm == .idle && t.env.wireTx == [0xE1, 2] && t.env.dev.isOpen) = true := by
  decide
theorem test_fsm_wait_expires : (transition { openWith [] [] with
    fsm := .rWait, rdTimer := some 0, call := some (ready 9 []) }).fsm = .idle := by decide
theorem test_fsm_write_expires : (transition { presenting msgS1 (openWith [] []) with
    fsm := .sWrite, wrTimer := some 0, call := some (moving 6) }).status = 1 := by decide
/-- R21: the session ends where CLOSE starts. -/
theorem test_fsm_close_starts : let t := startCommand .closeSession (openWith [7] [])
    t.fsm = .cClosing ∧ t.sess = .closed ∧ t.rbuf = [] ∧ t.env.dev.isOpen = true := by decide

/-- R227: C_CLOSING waits for `T.close`, without a bound. -/
theorem test_fsm_close_waits : let t := startCommand .closeSession (openWith [7] [{ ticks := 1 }])
    (transition t).fsm = .cClosing ∧ (transition (transition t)).fsm = .idle ∧
      (transition (transition t)).env.dev = .closed := by decide

/-! ## Each statement's hypotheses are met -/

/-- A next state, as a proposition. -/
theorem next_of {o : Host.Outcome State Fault Refusal} {p : State → Bool} (h : next o p = true) :
    ∃ t, o = .next t ∧ p t = true := by
  cases o with
  | next t => exact ⟨t, rfl, h⟩
  | fault f => cases h
  | refused r => cases h

theorem witness_EncodeHandsBackTheFrame :
    (presenting msgRemote State.reset).txmsg.rtr = true ∧
    ((presenting msgLong State.reset).txmsg.rtr = false ∧ (presenting msgLong State.reset).txmsg.len.toNat ≤ 8) := by
  decide
theorem witness_EncodeCompletesOutsideItsPrecondition :
    (presenting msgBad State.reset).txmsg.rtr = false ∧ 8 < (presenting msgBad State.reset).txmsg.len.toNat := by decide
theorem witness_DecodeUnfinishedFrameIsIncomplete :
    ([0xE1, 2] : Bytes).length < 3 ∧ ([1] : Bytes).length < (2 : Byte).toNat := by decide
theorem witness_DecodeInvalidHeads :
    (8 < (9 : Byte).toNat ∧ (9 : Byte).toNat ≤ ([1, 2, 3, 4, 5, 6, 7, 8, 9] : Bytes).length) ∧
    (8 < (9 : Byte).toNat ∧ ([1, 2, 3, 4, 5, 6, 7, 8] : Bytes).length < (9 : Byte).toNat) ∧
    ((0xE2 : Byte) ≠ 0xE1 ∧ (0xE2 : Byte) ≠ 0xD3) := by decide
theorem witness_DecodeCompleteDataFrame :
    ([1, 2, 3, 4, 5, 6, 7, 8] : Bytes).length = (8 : Byte).toNat ∧ (8 : Byte).toNat ≤ 8 := by decide
set_option maxRecDepth 8000 in
theorem witness_DecodeVerdictTable :
    (([0xD3, 7] : Bytes).length ≤ 2) ∧
    (3 ≤ ([0xD3, 7, 1] : Bytes).length ∧ ([0xD3, 7, 1] : Bytes).getD 0 0 = 0xD3) ∧
    (([0xE1, 0, 1] : Bytes).length = 3 ∧ ([0xE1, 0, 1] : Bytes).getD 0 0 = 0xE1) ∧
    (([0xE1, 1, 0, 0] : Bytes).length - 4 < (([0xE1, 1, 0, 0] : Bytes).getD 1 0).toNat) ∧
    ((([0xE1, 0, 0, 0] : Bytes).getD 1 0).toNat ≤ ([0xE1, 0, 0, 0] : Bytes).length - 4) ∧
    (let b : Bytes := [0xE1, 9, 0, 0, 1, 2, 3, 4, 5, 6, 7, 8, 9];
      13 ≤ b.length ∧ 9 ≤ (b.getD 1 0).toNat ∧ (b.getD 1 0).toNat ≤ b.length - 4) ∧
    (3 ≤ ([0, 0, 0] : Bytes).length ∧ ([0, 0, 0] : Bytes).getD 0 0 ≠ 0xD3 ∧ ([0, 0, 0] : Bytes).getD 0 0 ≠ 0xE1) ∧
    decodeFrame (0xE1 :: 0xFF :: List.replicate 256 0) = .incomplete ∧
    decodeFrame [0xE1, 0, 0, 0] = .complete zeroMsg 4 := by decide
theorem witness_DecodeLooksOnlyAtTheFrame :
    let b : Bytes := [0xD3, 1, 2, 5]
    let c : Bytes := [0xD3, 1, 2, 6]
    b.length = c.length ∧ b.getD 0 0 = c.getD 0 0 ∧ ¬(b.getD 0 0 = 0xE1) ∧
      ∀ m k, decodeFrame b = .complete m k → b.take k = c.take k := by
  refine ⟨rfl, rfl, by decide, fun m k h => ?_⟩
  have e : decodeFrame [0xD3, 1, 2, 5] = .complete (remoteMessage 0x102) 3 := by decide
  rw [e] at h
  injection h with _ hk
  subst hk
  rfl
theorem witness_DecodeEncodeRoundTrip :
    (msgRemote.rtr = true) ∧ (msgLong.len.toNat ≤ 8 ∧ msgLong.canonical = true) ∧
    decodeFrame [0xE1, 2, 1, 0x23, 0xAA, 0xBB, 0xCC] = .complete msgS1 6 := by decide
theorem witness_DecodeIsStableUnderExtension :
    decodeFrame [0xE1, 0, 0, 0] = .complete zeroMsg 4 ∧ decodeFrame [0, 0, 0] = .invalid .badTag := by decide
theorem witness_ProperPrefixOfAFrameIsIncomplete :
    msgLong.len.toNat ≤ 8 ∧ 11 < (encodeMessage msgLong).length := by decide
theorem witness_DecodeGivesBackTheEncodedInstruction :
    (Instr.data 0x7FF 8 [1, 2, 3, 4, 5, 6, 7, 8]).wf = true ∧
    ((Instr.badTag 0).wf = true ∧ 2 ≤ ([0, 0] : Bytes).length) ∧ (Instr.cmdReserved 7).wf = true ∧
    Instr.encode.wf = true := by decide
theorem witness_DataFrameIsDelivered : (Instr.data 0x7FF 8 [1, 2, 3, 4, 5, 6, 7, 8]).wf = true := by decide
theorem witness_InvalidHeadCostsOneByte : (openWith [5] []).rbuf = 5 :: [] ∧ 8 < (9 : Byte).toNat := by decide
theorem witness_RecvRunsTheFrameAtTheCursor :
    (∀ b ds, (openWith b ds).fsm = .idle ∧ (openWith b ds).sess = .opened) ∧
    decode (.atCursor (openWith [0xD2, 0, 0] []).rbuf) = .ok (.badTag 0xD2) ∧
    decode (.atCursor (openWith [0xD3, 7, 0xFF] []).rbuf) = .ok (.remote 0x7FF) ∧
    decode (.atCursor (openWith [0xE1, 9, 0, 0, 1, 2, 3, 4, 5, 6, 7, 8, 9] []).rbuf) = .error .badLen ∧
    decode (.atCursor (openWith [] []).rbuf) = .error .incomplete :=
  ⟨fun _ _ => ⟨rfl, rfl⟩, rfl, rfl, rfl, rfl⟩
theorem witness_OpenFailures :
    ((openWith [] []).fsm = .idle ∧ (openWith [] []).sess = .opened) ∧
    ((['1', 'm'] : List Char) ≠ ['1', 'M'] ∧
      (operands true 5 ['1', 'm'] State.reset).host.baudOk = baudOkOf ['1', 'm']) ∧
    ((operands false 5 ['1', 'M'] State.reset).host.portOk = false) ∧
    (let s := operands true 5 ['1', 'M'] (closedWith [{ ticks := 7 }]);
      s.fsm = .idle ∧ s.sess = .closed ∧ s.host.baudOk = true ∧ s.host.portOk = true ∧ s.env.dev = .closed ∧
        s.nextDraw.1.accept = false) ∧
    (let s : State := { operands true 5 ['1', 'M'] (openWith [] [{ ticks := 7 }]) with sess := .closed };
      s.fsm = .idle ∧ s.sess = .closed ∧ s.host.baudOk = true ∧ s.host.portOk = true ∧ s.env.dev ≠ .closed ∧
        s.nextDraw.1.accept = false) := by decide
theorem witness_OpenSucceeds :
    let s := operands true 5 ['1', 'M'] (closedWith [{ accept := true }])
    s.fsm = .idle ∧ s.sess = .closed ∧ s.host.baudOk = true ∧ s.host.portOk = true ∧ s.nextDraw.1.accept = true := by
  decide
theorem witness_CloseAlwaysSucceeds :
    ((openWith [1] []).fsm = .idle ∧ (openWith [1] []).sess = .opened) ∧
    (State.reset.fsm = .idle ∧ State.reset.sess = .closed) := by decide
theorem witness_SendRefusesWithoutWriting :
    (State.reset.fsm = .idle ∧ State.reset.sess = .closed) ∧
    (let s := presenting msgBad (openWith [] []);
      s.fsm = .idle ∧ s.txmsg.rtr = false ∧ 8 < s.txmsg.len.toNat) := by decide
theorem witness_SendReportsWhetherAllWasTaken :
    let s := presenting msgLong (openWith [] [moving 12])
    s.fsm = .idle ∧ s.sess = .opened ∧ s.txmsg.len.toNat ≤ 8 := by decide
theorem witness_SendWritesOneFrame :
    (let s := presenting msgLong (openWith [] [moving 12]);
      s.fsm = .idle ∧ s.sess = .opened ∧ s.txmsg.len.toNat ≤ 8 ∧ (s.env.advance s.nextDraw.1).commErr = false) ∧
    (let s := presenting msgRemote (openWith [] [{ moves := 3, event := some (.commError []) }]);
      s.fsm = .idle ∧ s.sess = .opened ∧ s.txmsg.rtr = true ∧ (s.env.advance s.nextDraw.1).commErr = true) ∧
    (moving 12).ticks < 1000 ∧ 1000 ≤ ({ moves := 12, ticks := 1000 } : Draw).ticks := by decide
theorem witness_SendIgnoresTheReceiveSide :
    ∃ t, exec .send (presenting msgLong (openWith [1] [moving 12])) = .next t ∧ t.env.wireTx.length = 12 :=
  ⟨_, rfl, by decide⟩
theorem witness_RecvWithoutASessionFails : State.reset.fsm = .idle ∧ State.reset.sess = .closed := by decide
theorem witness_RecvReturnsABufferedFrameAtOnce :
    let s := openWith [0xE1, 0, 0, 0, 7] []
    s.fsm = .idle ∧ s.sess = .opened ∧ decodeFrame s.rbuf = .complete zeroMsg 4 := by decide

/-- One state for each cause RECV can end with, and one for a frame found after the read. -/
theorem witness_RecvCausesAndBuffers :
    decodeFrame (openWith [] []).rbuf = .incomplete ∧
    (commandRecv (openWith [] [{ }])).cause = some .noDataTimeout ∧
    (commandRecv (openWith [] [ready 0 [], { }])).cause = some .noDataEmpty ∧
    (commandRecv (openWith [] [ready 0 [1], { }, { }])).cause = some .noDataZeroRead ∧
    (commandRecv (openWith [] [ready 499 [1], { }, moving 1])).cause = some .noDataIncomplete ∧
    (commandRecv (openWith [] [ready 0 [1, 2, 3], { }, moving 3])).cause = some (.noDataInvalid .badTag) ∧
    (commandRecv (openWith [] [ready 0 [0xD3, 0, 0], { }, moving 3])).cause = none := by decide
theorem witness_RecvWaitsAsksAndReads :
    let s := openWith [0xE1] [ready 499 [1], { }, moving 1]
    s.fsm = .idle ∧ s.sess = .opened ∧ s.draws = ready 499 [1] :: { } :: moving 1 :: [] ∧
      s.env.dev = .opened cfg ∧ s.env.commErr = false ∧ cleanDraw (ready 499 [1]) = true ∧
      cleanDraw { } = true ∧ cleanDraw (moving 1) = true ∧ decodeFrame s.rbuf = .incomplete ∧
      ¬((ready 499 [1]).accept = false ∨ 500 ≤ (ready 499 [1]).ticks) ∧ 500 ≤ (ready 500 []).ticks := by decide
theorem witness_RecvWaitsAsksAndReads_each_branch :
    (commandRecv (openWith [] [ready 500 [1], { }, { }])).cause = some .noDataTimeout ∧
    (commandRecv (openWith [] [ready 499 [], { }, { }])).cause = some .noDataEmpty ∧
    (commandRecv (openWith [] [ready 499 [], { arrivals := [1] }, { }])).cause = some .noDataZeroRead ∧
    (commandRecv (openWith [] [ready 499 [], { arrivals := [1] }, moving 1])).cause = some .noDataIncomplete := by
  decide
theorem witness_RecvIgnoresTheTransmitSide :
    ∃ t, exec .recv (openWith [] [ready 0 [0xD3, 0, 0], { }, moving 3]) = .next t ∧ t.status = 0 := ⟨_, rfl, by decide⟩
set_option maxRecDepth 8000 in
theorem witness_ReadRequestIsPositiveAndFits :
    (Memory.wf (.finite 259 (by decide)) (0xE1 :: 0xFF :: List.replicate 256 0) = true ∧
      decodeFrame (0xE1 :: 0xFF :: List.replicate 256 0) = .incomplete) ∧
    (Memory.wf (.finite 259 (by decide)) (List.replicate 259 0) = true ∧
      decodeFrame (List.replicate 259 0) = .invalid .badTag) ∧
    ([7] : Bytes).length ≤ readRequest (.finite 259 (by decide)) 258 := by decide
theorem witness_SplitFrameIsReassembled :
    let a₁ := ready 0 [0xE1, 2, 1]
    let a₂ := ready 499 [0x23, 0xAA, 0xBB]
    let s := openWith [] [a₁, { }, moving 3, a₂, { }, moving 6]
    s.fsm = .idle ∧ s.sess = .opened ∧ s.rbuf = [] ∧ s.env.dev = .opened cfg ∧ s.env.rxq = [] ∧
      s.env.commErr = false ∧ msgS1.canonical = true ∧ 0 < 3 ∧ 3 < (encodeMessage msgS1).length ∧
      s.draws = [a₁, { }, moving 3, a₂, { }, moving 6] ∧
      (∀ d ∈ [a₁, { }, moving 3, a₂, { }, moving 6], cleanDraw d = true) ∧
      a₁.accept = true ∧ a₁.ticks < 500 ∧ a₂.accept = true ∧ a₂.ticks < 500 ∧
      a₁.arrivals ++ [] = (encodeMessage msgS1).take 3 ∧ 3 ≤ (moving 3).moves ∧
      a₂.arrivals ++ [] = (encodeMessage msgS1).drop 3 ∧ (encodeMessage msgS1).length ≤ (moving 6).moves := by decide
theorem witness_ThroughputBounds :
    (∃ t, exec .recv (openWith [0, 0xFF, 0x7E] [ready 0 [0xD3], { }, moving 1]) = .next t ∧
      t.hist.groups = [.dropped 0, .dropped 0xFF]) ∧
    (∃ t, exec .send (presenting msgLong (openWith [] [moving 12])) = .next t ∧ t.env.wireTx.length = 12) :=
  ⟨⟨_, rfl, by decide⟩, ⟨_, rfl, by decide⟩⟩
theorem witness_ChbaudAndReservedSelectorsFail : State.reset.fsm = .idle := by decide
theorem witness_CommandInProgressRefusesAnother : ({ State.reset with fsm := .rWait } : State).fsm ≠ .idle := by decide
theorem witness_TransportOpenAnswers :
    (closedWith [{ }]).env.dev = .closed ∧ (closedWith [{ }]).nextDraw.1.accept = false ∧
    (closedWith [{ accept := true }]).nextDraw.1.accept = true := by decide
theorem witness_TransportCloseAndPurge :
    ∃ t u, exec .tClose (openWith [] []) = .next t ∧ exec .tClose t = .next u := ⟨_, _, rfl, rfl⟩
theorem witness_TransportReadReturnsAPrefix :
    ((openWith [] [moving 1]).env.advance (moving 1)).commErr = false ∧
    ((openWith [] []).env.advance { event := some (.commError [1]) }).commErr = true := by decide
theorem witness_CleanReadKeepsTheStream :
    let s := openWith [] [{ arrivals := [1, 2, 3], moves := 2 }]
    s.env.dev = .opened cfg ∧ cleanDraw s.nextDraw.1 = true ∧
      ∃ t, exec (.tRead 3000 500) s = .next t ∧ t.result = .chunk [1, 2] :=
  ⟨rfl, rfl, _, rfl, by decide⟩
theorem witness_HardwareResetAtAnyTime :
    (let s : State := { openWith [1] [] with fsm := .rWait, call := some (ready 1 []), pending := [.reset] };
      s.pending = .reset :: [] ∧ s.fsm ≠ .oOpening ∧ s.fsm ≠ .cClosing) ∧
    (let s : State := { openWith [] [] with fsm := .sWrite, call := some (moving 1), pending := [.reset] };
      s.pending = .reset :: [] ∧ s.fsm = .sWrite) := by decide
theorem witness_OnlyOpenHelpsAfterReset :
    State.reset = { State.reset with host := HostPort.initial } := by decide
theorem witness_StepRunsTheFetchedInstruction :
    (let p : HostPort := { HostPort.initial with cmd := 3 };
      let s : State := { State.reset with pending := [.command p] };
      s.fsm = .idle ∧ s.pending = .command p :: [] ∧ selectCommand p.cmd = .send) ∧
    (let p : HostPort := { HostPort.initial with cmd := 4 };
      let s : State := { openWith [0xD3, 7, 0xFF] [] with pending := [.command p] };
      s.fsm = .idle ∧ s.pending = .command p :: [] ∧ p.cmd = 4 ∧ s.sess = .opened ∧
        decodeFrame s.rbuf = .complete (remoteMessage 0x7FF) 3 ∧ (Instr.remote 0x7FF).hasPattern = true) := by decide
theorem witness_StepAdvancesTheStateMachine :
    (let s : State := { State.reset with pending := [.start HostPort.initial] };
      s.fsm = .idle ∧ s.pending = .start HostPort.initial :: []) ∧
    (let s : State := { openWith [] [] with fsm := .rAvail, pending := [.command HostPort.initial, .reset] };
      s.fsm ≠ .idle ∧ s.pending.head? ≠ some .reset ∧ s.pending.head? ≠ some (.concurrent HostPort.initial)) ∧
    (State.reset.fsm = .idle ∧ State.reset.pending = []) := by decide
theorem witness_StepIsRefusedOnlyForAConcurrentCommand :
    refusedWith (step { openWith [] [] with fsm := .rAvail, pending := [.concurrent HostPort.initial] })
      .commandInProgress = true ∧
    next (step { openWith [] [] with pending := [.concurrent HostPort.initial] }) (fun t => t.status == 1) = true := by
  decide
theorem witness_SerialisedRunsNeverStop :
    ({ State.reset with pending := [.command HostPort.initial, .start HostPort.initial, .reset] } : State).serialised =
      true := by decide
theorem witness_StateMachineImplementsTheCommands : (openWith [] [ready 3 []]).fsm = .idle := by decide
theorem inv_openWith : Inv (openWith [0xE1] []) :=
  ⟨by show Memory.wf _ _ = true; decide, ⟨by decide, .inl (by decide)⟩, by decide, ⟨by intro h; exact absurd h (by decide), fun _ => rfl⟩⟩
theorem witness_StepKeepsTheInvariant :
    (∃ s t, Inv s ∧ step s = .next t ∧ t.status = 1) ∧
    (∃ s t, Inv s ∧ s.fsm = .rWait ∧ step s = .next t ∧ t.fsm = .rAvail) := by
  refine ⟨⟨{ openWith [0xE1] [] with pending := [.command HostPort.initial] }, _,
    ⟨inv_openWith.capacity, inv_openWith.result, inv_openWith.fsm, inv_openWith.session⟩, rfl, by decide⟩,
    ⟨{ openWith [0xE1] [] with fsm := .rWait, rdTimer := some 500, call := some (ready 0 [1]) }, _,
      ⟨inv_openWith.capacity, inv_openWith.result, by decide, inv_openWith.session⟩, rfl, rfl, by decide⟩⟩
theorem witness_StepConservesReceivedBytes :
    ∃ s t, Conserved s ∧ s.sess = .opened ∧ s.rbuf = [0xD3, 7, 0xFF] ∧ step s = .next t ∧
      t.hist.groups = [.frame [0xD3, 7, 0xFF] (remoteMessage 0x7FF)] :=
  ⟨{ openWith [0xD3, 7, 0xFF] [] with
      pending := [.command { HostPort.initial with cmd := 4 }], hist := ⟨[0xD3, 7, 0xFF], []⟩ }, _,
    fun _ => ⟨rfl, by intro g hg; exact absurd hg (by simp)⟩, rfl, rfl, rfl, by decide⟩
theorem witness_NoInstructionWritesTheHostInputs :
    ∃ t, exec .closeCmd (presenting msgLong (openWith [] [])) = .next t := ⟨_, rfl⟩
theorem witness_OnlyRecvWritesRxmsg :
    ∃ t, exec (.remote 5) (openWith [0xD3, 0, 5] []) = .next t ∧ t.rxmsg ≠ (openWith [0xD3, 0, 5] []).rxmsg :=
  ⟨_, rfl, by decide⟩
theorem witness_OnlyOpenAndCloseChangeTheSession :
    (∃ t, exec .openCmd (operands true 5 ['1', 'M'] (closedWith [{ accept := true }])) = .next t ∧ t.sess ≠ .closed) ∧
    (∃ t, exec .closeCmd (openWith [] []) = .next t ∧ t.sess ≠ .opened) :=
  ⟨⟨_, rfl, by decide⟩, ⟨_, rfl, by decide⟩⟩
theorem witness_SessionIsOpenFromOpenToTheStartOfClose :
    (∃ s t, Inv s ∧ step s = .next t ∧ s.sess = .opened ∧ t.sess = .closed ∧ s.fsm = .idle) ∧
    (∃ s t, Inv s ∧ step s = .next t ∧ s.sess = .closed ∧ t.sess = .opened ∧ s.fsm = .oOpening) ∧
    (∃ (s : State) (p : HostPort), s.fsm = .idle ∧ s.sess = .opened ∧ s.pending = .start p :: [] ∧ p.cmd = 2) := by
  refine ⟨⟨{ openWith [0xE1] [] with pending := [.start { HostPort.initial with cmd := 2 }] }, _,
    ⟨inv_openWith.capacity, inv_openWith.result, inv_openWith.fsm, inv_openWith.session⟩, rfl, by decide⟩,
    ⟨{ operands true 5 ['1', 'M'] (closedWith []) with fsm := .oOpening, call := some { accept := true } }, _,
      ⟨rfl, ⟨by decide, .inl (by decide)⟩, by decide, fun _ => rfl, by intro h; exact absurd h (by decide)⟩,
      rfl, by decide⟩,
    ⟨{ openWith [] [] with pending := [.start { HostPort.initial with cmd := 2 }] },
      { HostPort.initial with cmd := 2 }, by decide⟩⟩
theorem witness_OnlySendPutsBytesOnTheWire :
    (∃ t, exec .send (presenting msgLong (openWith [] [moving 12])) = .next t ∧ t.env.wireTx ≠ []) ∧
    (∃ t, exec (.tWrite [0xD3, 0, 0] 1000) (openWith [] [moving 1]) = .next t ∧ t.env.wireTx ≠ []) :=
  ⟨⟨_, rfl, by decide⟩, ⟨_, rfl, by decide⟩⟩
theorem witness_TransportFailuresKeepTheSession :
    (∃ t, exec .send (presenting msgLong (openWith [1] [moving 0])) = .next t ∧ t.status = 1) ∧
    (∃ t, exec .recv (openWith [1] [{ event := some (.commError []) }]) = .next t ∧ t.status = 1) :=
  ⟨⟨_, rfl, by decide⟩, ⟨_, rfl, by decide⟩⟩
theorem witness_WaitingIsBounded :
    (∃ t, exec .send (presenting msgLong (openWith [] [{ ticks := 2000 }])) = .next t ∧ t.env.clock = 1000) ∧
    (∃ t, exec .recv (openWith [] [{ ticks := 2000 }]) = .next t ∧
      (commandRecv (openWith [] [{ ticks := 2000 }])).cause = some .noDataTimeout ∧ t.env.clock = 500) ∧
    (∃ t, exec .recv (openWith [0xE1, 0, 0, 0] []) = .next t ∧
      decodeFrame (openWith [0xE1, 0, 0, 0] []).rbuf = .complete zeroMsg 4) ∧
    (∃ t, exec .chbaud State.reset = .next t) :=
  ⟨⟨_, rfl, by decide⟩, ⟨_, rfl, by decide, by decide⟩, ⟨_, rfl, by decide⟩, ⟨_, rfl⟩⟩

end Sys2Proof.Machine.Tests
end

/-! Proofs of the family 10_state.md: what the state holds, who writes which register, and the invariant every step
keeps. First what each row and each step can do, then the frames, then the invariant and the session. -/

namespace Sys2Proof.Machine

/-! ## What an instruction and a step can do -/

/-- The transaction a command runs when the state machine is idle (R9, R92). -/
def runCommand : Command → State → Finished
  | .openSession => commandOpen
  | .closeSession => commandClose
  | .send => commandSend
  | .recv => commandRecv
  | .chbaud => commandChbaud
  | .reserved _ => commandReserved

theorem exec_instr (c : Command) (s : State) : exec c.instr s = whenIdle (runCommand c) s := by
  cases c <;> rfl

theorem selectCommand_eq_openSession {code : BitVec 3} : selectCommand code = .openSession ↔ code = 1 := by
  revert code; decide

theorem selectCommand_eq_closeSession {code : BitVec 3} : selectCommand code = .closeSession ↔ code = 2 := by
  revert code; decide

/-- The instructions without a bit pattern are the calls (R97): they touch the environment, the draws and the value
handed back, and they always answer. -/
theorem exec_call {i : Instr} (h : i.hasPattern = false) (s : State) :
    ∃ e ds n a, exec i s = .next ((moved s e ds n).answer a) := by
  cases i with
  | encode => exact ⟨s.env, s.draws, s.drawCount, _, rfl⟩
  | decode => exact ⟨s.env, s.draws, s.drawCount, _, rfl⟩
  | tOpen x y => exact ⟨_, _, _, .openResult (callOpen x y s).1, by rw [← callOpen_moved]; rfl⟩
  | tClose => exact ⟨_, _, _, .closeDone, by rw [← callClose_moved]; rfl⟩
  | tPurge => exact ⟨s.env.purge, s.draws, s.drawCount, _, rfl⟩
  | tWrite b ms => exact ⟨_, _, _, .written (callWrite b ms s).1, by rw [← callWrite_moved]; rfl⟩
  | tWaitReadable ms => exact ⟨_, _, _, .readable (callWait ms s).1, by rw [← callWait_moved]; rfl⟩
  | tAvailable => exact ⟨_, _, _, .count (callAvailable s).1, by rw [← callAvailable_moved]; rfl⟩
  | tRead n ms => exact ⟨_, _, _, .chunk (callRead n ms s).1, by rw [← callRead_moved]; rfl⟩
  | data | remote | badTag | openCmd | closeCmd | send | recv | chbaud | cmdReserved => cases h

/-- A host command that answers was issued in `IDLE` and ran its transaction (R280). -/
theorem exec_instr_next {c : Command} {s t : State} (h : exec c.instr s = .next t) :
    s.fsm = .idle ∧ t = (runCommand c s).state :=
  whenIdle_next (exec_instr c s ▸ h)

/-- Everything an instruction that answers can do: a call, a host command in `IDLE`, a frame delivered, or the
leading byte dropped. -/
theorem exec_next_cases {i : Instr} {s t : State} (h : exec i s = .next t) :
    (i.hasPattern = false ∧ ∃ e ds n a, t = (moved s e ds n).answer a) ∨
    (∃ c : Command, i = c.instr ∧ s.fsm = .idle ∧ t = (runCommand c s).state) ∨
    (∃ c l p, i = .data c l p ∧ l.toNat ≤ Config.maxDlen ∧
      t = (deliver (dataMessage c l p) (Config.hdrData + l.toNat) s).state) ∨
    (∃ c, i = .remote c ∧ t = (deliver (remoteMessage c) Config.lenRemote s).state) ∨
    (((∃ c l p, i = .data c l p ∧ Config.maxDlen < l.toNat) ∨ ∃ b, i = .badTag b) ∧ t = dropOne s) := by
  by_cases hi : i.hasPattern = false
  · obtain ⟨e, ds, n, a, ha⟩ := exec_call hi s
    rw [ha] at h
    injection h with h
    exact .inl ⟨hi, e, ds, n, a, h.symm⟩
  · right
    cases i with
    | data c l p =>
      change execData c l p s = _ at h
      unfold execData at h
      split at h <;> rename_i hl <;> injection h with h
      · exact .inr (.inr (.inr ⟨.inl ⟨c, l, p, rfl, hl⟩, h.symm⟩))
      · exact .inr (.inl ⟨c, l, p, rfl, Nat.le_of_not_lt hl, h.symm⟩)
    | remote c => injection h with h; exact .inr (.inr (.inl ⟨c, rfl, h.symm⟩))
    | badTag b => injection h with h; exact .inr (.inr (.inr ⟨.inr ⟨b, rfl⟩, h.symm⟩))
    | openCmd => exact .inl ⟨.openSession, rfl, exec_instr_next h⟩
    | closeCmd => exact .inl ⟨.closeSession, rfl, exec_instr_next h⟩
    | send => exact .inl ⟨.send, rfl, exec_instr_next h⟩
    | recv => exact .inl ⟨.recv, rfl, exec_instr_next h⟩
    | chbaud => exact .inl ⟨.chbaud, rfl, exec_instr_next h⟩
    | cmdReserved code => exact .inl ⟨.reserved code, rfl, exec_instr_next h⟩
    | encode | decode | tOpen | tClose | tPurge | tWrite | tWaitReadable | tAvailable | tRead =>
      exact absurd rfl hi

/-- The host's next request starts a command (log 10). -/
theorem step_start {s : State} {p : HostPort} {rest : List HostReq} (hi : s.fsm = .idle)
    (hp : s.pending = .start p :: rest) : step s = .next (startCommand p.command (s.load p rest)) := by
  simp [step, nextActivity, hp, hi]

/-- Everything a step that answers can do (log 10): rest, hardware reset, a command as one transaction, the start of
one, or a transition of the one in progress. -/
theorem step_next_cases {s t : State} (h : step s = .next t) :
    (s.fsm = .idle ∧ s.pending = [] ∧ t = s) ∨
    (∃ rest, s.pending = .reset :: rest ∧ t = hardReset { s with pending := rest }) ∨
    (s.fsm = .idle ∧ ∃ p rest, (s.pending = .command p :: rest ∨ s.pending = .concurrent p :: rest) ∧
      t = (runCommand p.command (s.load p rest)).state) ∨
    (s.fsm = .idle ∧ ∃ p rest, s.pending = .start p :: rest ∧ t = startCommand p.command (s.load p rest)) ∨
    (s.fsm ≠ .idle ∧ t = transition s) := by
  unfold step nextActivity at h
  cases hp : s.pending with
  | nil =>
    rw [hp] at h
    by_cases hi : s.fsm = .idle <;> simp only [hi, if_true, if_false, Host.Outcome.next.injEq] at h
    · exact .inl ⟨hi, rfl, h.symm⟩
    · exact .inr (.inr (.inr (.inr ⟨hi, h.symm⟩)))
  | cons r rest =>
    rw [hp] at h
    right
    cases r with
    | reset => injection h with h; exact .inl ⟨rest, rfl, h.symm⟩
    | concurrent p =>
      obtain ⟨hi, ht⟩ := exec_instr_next (c := p.command) (s := s.load p rest) h
      exact .inr (.inl ⟨hi, p, rest, .inr rfl, ht⟩)
    | command p =>
      by_cases hi : s.fsm = .idle <;> simp only [hi, if_true, if_false, Host.Outcome.next.injEq] at h
      · exact .inr (.inl ⟨hi, p, rest, .inl rfl, (exec_instr_next h).2⟩)
      · exact .inr (.inr (.inr ⟨hi, h.symm⟩))
    | start p =>
      by_cases hi : s.fsm = .idle <;> simp only [hi, if_true, if_false, Host.Outcome.next.injEq] at h
      · exact .inr (.inr (.inl ⟨hi, p, rest, rfl, h.symm⟩))
      · exact .inr (.inr (.inr ⟨hi, h.symm⟩))

/-! ## How the shared parts of the commands end -/

theorem afterWrite_eq_finish (n k : Nat) (s : State) : ∃ c, afterWrite n k s = finish c s := by
  unfold afterWrite; split
  · exact ⟨none, rfl⟩
  · exact ⟨some (.shortWrite k), rfl⟩

/-- Everything OPEN can do after `T.open` (R213, R214). -/
theorem afterOpen_cases (ok : Bool) (s : State) :
    (ok = true ∧ afterOpen ok s = succeed { rbufTrim s.rlen s with sess := .opened, hist := ⟨[], []⟩ }) ∨
    (ok = false ∧ afterOpen ok s = raise .transportOpen s) := by
  cases ok
  · exact .inr ⟨rfl, rfl⟩
  · exact .inl ⟨rfl, rfl⟩

/-- Everything CLOSE can do (R219, R220). -/
theorem commandClose_cases (s : State) :
    (s.sess = .opened ∧ commandClose s = succeed (endSession (callClose s))) ∨
    (s.sess = .closed ∧ commandClose s = succeed s) := by
  unfold commandClose
  split
  · exact .inl ⟨‹_›, rfl⟩
  · exact .inr ⟨‹_›, rfl⟩

/-! ## What the state machine's transitions can do -/

/-- Everything the start of OPEN can do (R227). -/
theorem startOpen_cases (s : State) :
    (s.sess = .opened ∧ startCommand .openSession s = (raise .alreadyOpen s).state) ∨
    (s.sess = .closed ∧ s.openOperandsOk = true ∧
      startCommand .openSession s = beginCall .oOpening none none s) ∨
    (s.sess = .closed ∧ s.openOperandsOk = false ∧ startCommand .openSession s = (raise .config s).state) := by
  simp only [startCommand]
  split
  · exact .inl ⟨‹_›, rfl⟩
  · split
    · exact .inr (.inl ⟨‹_›, ‹_›, rfl⟩)
    · exact .inr (.inr ⟨‹_›, Bool.eq_false_iff.mpr ‹_›, rfl⟩)

/-- Everything the start of CLOSE can do (R227). -/
theorem startClose_cases (s : State) :
    (s.sess = .opened ∧ startCommand .closeSession s = beginCall .cClosing none none (endSession s)) ∨
    (s.sess = .closed ∧ startCommand .closeSession s = (succeed s).state) := by
  simp only [startCommand]
  split
  · exact .inl ⟨‹_›, rfl⟩
  · exact .inr ⟨‹_›, rfl⟩

/-- Everything the start of RECV can do (R175). -/
theorem startRecv_cases (s : State) :
    (s.sess = .opened ∧ startCommand .recv s = enter .rDecode1 s) ∨
    (s.sess = .closed ∧ startCommand .recv s = (noMessage .notOpen s).state) := by
  simp only [startCommand]
  split
  · exact .inl ⟨‹_›, rfl⟩
  · exact .inr ⟨‹_›, rfl⟩

/-- Everything `S_ENCODE` can do (R148). -/
theorem fromSEncode_cases (s : State) :
    (s.sess = .closed ∧ fromSEncode s = (raise .notOpen s).state) ∨
    (s.sess = .opened ∧ s.sendOperandOk = true ∧
      fromSEncode s = beginCall .sWrite (some Config.wrTimeoutMs) none s) ∨
    (s.sess = .opened ∧ s.sendOperandOk = false ∧ fromSEncode s = (raise .badLen s).state) := by
  unfold fromSEncode
  split
  · exact .inl ⟨‹_›, rfl⟩
  · split
    · exact .inr (.inl ⟨‹_›, ‹_›, rfl⟩)
    · exact .inr (.inr ⟨‹_›, Bool.eq_false_iff.mpr ‹_›, rfl⟩)

/-- Everything `R_DECODE1` can do (R175). -/
theorem fromRDecode1_cases (s : State) :
    (∃ m k, decodeFrame s.rbuf = .complete m k ∧ fromRDecode1 s = (deliver m k s).state) ∨
    (∃ r, decodeFrame s.rbuf = .invalid r ∧
      fromRDecode1 s = beginCall .rWait none (some Config.rdTimeoutMs) (dropOne s)) ∨
    (decodeFrame s.rbuf = .incomplete ∧ fromRDecode1 s = beginCall .rWait none (some Config.rdTimeoutMs) s) := by
  unfold fromRDecode1
  split
  · exact .inl ⟨_, _, ‹_›, rfl⟩
  · exact .inr (.inl ⟨_, ‹_›, rfl⟩)
  · exact .inr (.inr ⟨‹_›, rfl⟩)

/-- Everything `R_AVAIL` can do (R175). -/
theorem fromRAvail_cases (s : State) :
    ((callAvailable s).1 = 0 ∧ fromRAvail s = (noMessage .noDataEmpty (callAvailable s).2).state) ∨
    ((callAvailable s).1 ≠ 0 ∧
      fromRAvail s = beginCall .rRead none (some Config.rdTimeoutMs) (callAvailable s).2) := by
  simp only [fromRAvail]
  split
  · exact .inl ⟨‹_›, rfl⟩
  · exact .inr ⟨‹_›, rfl⟩

/-- Everything the end of `T.waitReadable` can do (R175). -/
theorem waitEnds_cases (x : Bool) (d : Draw) (s : State) :
    ((s.env.waitReadable x d).1 = true ∧
      waitEnds x d s = enter .rAvail { s with env := (s.env.waitReadable x d).2 }) ∨
    ((s.env.waitReadable x d).1 = false ∧
      waitEnds x d s = (noMessage .noDataTimeout { s with env := (s.env.waitReadable x d).2 }).state) := by
  simp only [waitEnds]
  split
  · exact .inl ⟨‹_›, rfl⟩
  · exact .inr ⟨Bool.eq_false_iff.mpr ‹_›, rfl⟩

/-- Everything the end of `T.read` can do (R175). -/
theorem readEnds_cases (x : Bool) (d : Draw) (s : State) :
    ((s.env.read s.readRequest d).1 = [] ∧
      readEnds x d s = (noMessage .noDataZeroRead { s with env := (s.env.read s.readRequest d).2 }).state) ∨
    ((s.env.read s.readRequest d).1 ≠ [] ∧
      readEnds x d s = enter .rDecode2
        (rbufAppend (s.env.read s.readRequest d).1 { s with env := (s.env.read s.readRequest d).2 })) := by
  simp only [readEnds]
  split
  · exact .inl ⟨‹_›, rfl⟩
  · exact .inr ⟨‹_›, rfl⟩

/-- Everything a step of a waiting state can do (R255): the call ends, or a tick passes. -/
theorem transition_wait_cases {s : State} {d : Draw} (hw : s.fsm.waits = true) (hc : s.call = some d) :
    (∃ x, (if x then s.waitTimer = some 0 else s.waitTimer ≠ some 0 ∧ d.ticks = 0) ∧
      transition s = waitEnd x d s) ∨
    (s.waitTimer ≠ some 0 ∧ d.ticks ≠ 0 ∧ transition s = tickOnce d s) := by
  rw [transition_waits hw, whileWaiting, hc]
  simp only
  split
  · exact .inl ⟨true, ‹_›, rfl⟩
  · split
    · exact .inl ⟨false, ⟨‹_›, ‹_›⟩, rfl⟩
    · exact .inr ⟨‹_›, ‹_›, rfl⟩

/-! ## What the commands leave unchanged -/

/-- The host's inputs, the capacity and the requests are the same (R25, R32, R33). -/
structure SameInputs (s t : State) : Prop where
  host : t.host = s.host
  cap : t.cap = s.cap
  pending : t.pending = s.pending

theorem SameInputs.trans {s t u : State} (h : SameInputs s t) (k : SameInputs t u) : SameInputs s u :=
  ⟨k.host.trans h.host, k.cap.trans h.cap, k.pending.trans h.pending⟩

theorem decodeAgain_sameInputs (s : State) : SameInputs s (decodeAgain s).state := by
  obtain ⟨m, k, -, h⟩ | ⟨r, -, h⟩ | ⟨-, h⟩ := decodeAgain_cases s <;> rw [h] <;> exact ⟨rfl, rfl, rfl⟩

theorem decodeAgain_sess (s : State) : (decodeAgain s).state.sess = s.sess := by
  obtain ⟨m, k, -, h⟩ | ⟨r, -, h⟩ | ⟨-, h⟩ := decodeAgain_cases s <;> rw [h] <;> rfl

theorem recvWait_sameInputs (s : State) : SameInputs s (recvWait s).state := by
  obtain ⟨e, ds, n, ⟨-, h⟩ | ⟨-, h | h | ⟨c, -, -, h⟩⟩⟩ := recvWait_cases s <;> rw [h]
  · exact ⟨rfl, rfl, rfl⟩
  · exact ⟨rfl, rfl, rfl⟩
  · exact ⟨rfl, rfl, rfl⟩
  · have appended : SameInputs s (rbufAppend c (moved s e ds n)) := ⟨rfl, rfl, rfl⟩
    exact appended.trans (decodeAgain_sameInputs _)

theorem recvWait_sess (s : State) : (recvWait s).state.sess = s.sess := by
  obtain ⟨e, ds, n, ⟨-, h⟩ | ⟨-, h | h | ⟨c, -, -, h⟩⟩⟩ := recvWait_cases s <;> rw [h]
  · rfl
  · rfl
  · rfl
  · exact decodeAgain_sess (rbufAppend c (moved s e ds n))

theorem commandRecv_sameInputs (s : State) : SameInputs s (commandRecv s).state := by
  obtain ⟨-, h⟩ | ⟨-, m, k, -, h⟩ | ⟨-, r, -, h⟩ | ⟨-, -, h⟩ := commandRecv_cases s <;> rw [h]
  · exact ⟨rfl, rfl, rfl⟩
  · exact ⟨rfl, rfl, rfl⟩
  · have dropped : SameInputs s (dropOne s) := ⟨rfl, rfl, rfl⟩
    exact dropped.trans (recvWait_sameInputs _)
  · exact recvWait_sameInputs s

theorem commandRecv_sess (s : State) : (commandRecv s).state.sess = s.sess := by
  obtain ⟨-, h⟩ | ⟨-, m, k, -, h⟩ | ⟨-, r, -, h⟩ | ⟨-, -, h⟩ := commandRecv_cases s <;> rw [h]
  · rfl
  · rfl
  · exact recvWait_sess (dropOne s)
  · exact recvWait_sess s

/-- Everything SEND leaves unchanged besides the inputs: the session and `RXMSG` (R147). -/
theorem commandSend_frame (s : State) :
    SameInputs s (commandSend s).state ∧ (commandSend s).state.sess = s.sess ∧
      (commandSend s).state.rxmsg = s.rxmsg := by
  obtain ⟨-, h⟩ | ⟨-, -, h⟩ | ⟨-, -, h⟩ := commandSend_cases s <;> rw [h]
  · exact ⟨⟨rfl, rfl, rfl⟩, rfl, rfl⟩
  · exact ⟨⟨rfl, rfl, rfl⟩, rfl, rfl⟩
  · obtain ⟨c, hc⟩ := afterWrite_eq_finish (encodeMessage s.txmsg).length
      (callWrite (encodeMessage s.txmsg) Config.wrTimeoutMs s).1
      (callWrite (encodeMessage s.txmsg) Config.wrTimeoutMs s).2
    rw [hc]
    exact ⟨⟨by simp, by simp, by simp⟩, by simp, by simp⟩

theorem commandOpen_frame (s : State) :
    SameInputs s (commandOpen s).state ∧ (commandOpen s).state.rxmsg = s.rxmsg := by
  obtain ⟨-, h⟩ | ⟨-, -, h⟩ | ⟨-, -, h⟩ := commandOpen_cases s <;> rw [h]
  · exact ⟨⟨rfl, rfl, rfl⟩, rfl⟩
  · exact ⟨⟨rfl, rfl, rfl⟩, rfl⟩
  · obtain ⟨-, ha⟩ | ⟨-, ha⟩ := afterOpen_cases (callOpen s.host.port Config.baudDefault s).1
      (callOpen s.host.port Config.baudDefault s).2 <;> rw [ha]
    · exact ⟨⟨by simp, by simp, by simp⟩, by simp⟩
    · exact ⟨⟨by simp, by simp, by simp⟩, by simp⟩

theorem commandClose_frame (s : State) :
    SameInputs s (commandClose s).state ∧ (commandClose s).state.rxmsg = s.rxmsg := by
  obtain ⟨-, h⟩ | ⟨-, h⟩ := commandClose_cases s <;> rw [h]
  · exact ⟨⟨by simp, by simp, by simp⟩, by simp⟩
  · exact ⟨⟨rfl, rfl, rfl⟩, rfl⟩

theorem runCommand_sameInputs (c : Command) (s : State) : SameInputs s (runCommand c s).state := by
  cases c with
  | openSession => exact (commandOpen_frame s).1
  | closeSession => exact (commandClose_frame s).1
  | send => exact (commandSend_frame s).1
  | recv => exact commandRecv_sameInputs s
  | chbaud | reserved => exact ⟨rfl, rfl, rfl⟩

/-- No command but RECV writes `RXMSG` (R26). -/
theorem runCommand_rxmsg {c : Command} (hc : c ≠ .recv) (s : State) : (runCommand c s).state.rxmsg = s.rxmsg := by
  cases c with
  | openSession => exact (commandOpen_frame s).2
  | closeSession => exact (commandClose_frame s).2
  | send => exact (commandSend_frame s).2.2
  | recv => exact absurd rfl hc
  | chbaud | reserved => rfl

/-- Settles O54, one case of `exec_next_cases` each. -/
theorem noInstructionWritesTheHostInputs : Obligations.NoInstructionWritesTheHostInputs := by
  intro i s t h
  obtain ⟨-, e, ds, n, a, rfl⟩ | ⟨c, -, -, rfl⟩ | ⟨c, l, p, -, -, rfl⟩ | ⟨c, -, rfl⟩ | ⟨-, rfl⟩ := exec_next_cases h
  · exact ⟨rfl, rfl, rfl⟩
  · obtain ⟨hhost, hcap, hpending⟩ := runCommand_sameInputs c s
    exact ⟨hhost, hcap, hpending⟩
  · exact ⟨rfl, rfl, rfl⟩
  · exact ⟨rfl, rfl, rfl⟩
  · exact ⟨rfl, rfl, rfl⟩

/-- Settles O55: a call and a dropped byte leave `RXMSG`, and so does every command but RECV. -/
theorem onlyRecvWritesRxmsg : Obligations.OnlyRecvWritesRxmsg := by
  intro i s t h hne
  obtain ⟨-, e, ds, n, a, rfl⟩ | ⟨c, rfl, -, rfl⟩ | ⟨c, l, p, hi, -⟩ | ⟨c, hi, -⟩ | ⟨-, rfl⟩ := exec_next_cases h
  · exact absurd rfl hne
  · by_cases hc : c = .recv
    · exact .inl (by rw [hc]; rfl)
    · exact absurd (runCommand_rxmsg hc s) hne
  · exact .inr (.inl ⟨c, l, p, hi⟩)
  · exact .inr (.inr ⟨c, hi⟩)
  · exact absurd rfl hne

/-! ## The invariant without the state machine -/

/-- The part of the invariant that does not speak of the state machine. -/
structure DataInv (s : State) : Prop where
  capacity : CapacityInv s
  result : ResultInv s
  session : SessionInv s

theorem Inv.data {s : State} (h : Inv s) : DataInv s := ⟨h.capacity, h.result, h.session⟩

/-- A buffer shorter than one within the capacity has room (R180). -/
theorem hasRoom_of_shorter {s t : State} (h : CapacityInv s) (hcap : t.cap = s.cap)
    (hlt : t.rbuf.length < s.rbuf.length) : t.hasRoom = true := by
  cases hc : s.cap with
  | finite n hn =>
    simp only [CapacityInv, Memory.wf, hc, decide_eq_true_eq] at h
    have room : t.rbuf.length < n := by omega
    simp only [State.hasRoom, State.rlen, hcap, hc]
    exact decide_eq_true room
  | unbounded => simp only [State.hasRoom, hcap, hc]

/-- Resynchronisation makes room: what was Invalid was not empty (R180). -/
theorem hasRoom_dropOne {s : State} {r : Reason} (h : CapacityInv s) (hd : decodeFrame s.rbuf = .invalid r) :
    (dropOne s).hasRoom = true := by
  obtain ⟨t, x, y, rest, hb⟩ := decodeFrame_invalid hd
  refine hasRoom_of_shorter h (dropOne_cap s) ?_
  rw [dropOne_rbuf, hb, List.drop_one, List.tail_cons, List.length_cons]
  exact Nat.lt_succ_self _

theorem fsmInv_rAvail {s : State} (ho : s.sess = .opened) (room : s.hasRoom = true) :
    FsmInv (enter .rAvail s) = true := by
  have hr : (enter .rAvail s).hasRoom = s.hasRoom := hasRoom_congr rfl rfl
  simp [FsmInv, State.quiet, ho, hr, room]

namespace DataInv

theorem inv {s : State} (h : DataInv s) (hf : FsmInv s = true) : Inv s := ⟨h.capacity, h.result, hf, h.session⟩

/-- The invariant reads only these fields. -/
theorem congr {s t : State} (h : DataInv s) (hcap : t.cap = s.cap) (hrbuf : t.rbuf = s.rbuf)
    (hrxmsg : t.rxmsg = s.rxmsg) (hstatus : t.status = s.status) (hsess : t.sess = s.sess)
    (hdev : t.env.dev = s.env.dev) : DataInv t := by
  obtain ⟨hc, hr, hs⟩ := h
  constructor
  · rwa [CapacityInv, hcap, hrbuf]
  · rwa [ResultInv, hrxmsg, hstatus]
  · rwa [SessionInv, hsess, hrbuf, hdev]

/-- Transport calls keep the invariant if they leave the device of an open session as it is. -/
theorem moved {s : State} (h : DataInv s) {e : Env} (he : s.sess = .opened → e.dev = s.env.dev) (ds : List Draw)
    (n : Nat) : DataInv (moved s e ds n) :=
  ⟨h.capacity, h.result, h.session.1, fun ho => (congrArg Dev.isOpen (he ho)).trans (h.session.2 ho)⟩

theorem withEnv {s : State} (h : DataInv s) {e : Env} (he : s.sess = .opened → e.dev = s.env.dev) :
    DataInv { s with env := e } := h.moved he s.draws s.drawCount

theorem load {s : State} (h : DataInv s) (p : HostPort) (rest : List HostReq) : DataInv (s.load p rest) :=
  h.congr rfl rfl rfl rfl rfl rfl

theorem withRxmsg {s : State} (h : DataInv s) {m : Message} (hm : m.canonical = true) :
    DataInv { s with rxmsg := m } := ⟨h.capacity, ⟨hm, h.result.2⟩, h.session⟩

theorem recordGroups {s : State} (h : DataInv s) (gs : List Group) : DataInv (s.recordGroups gs) :=
  h.congr rfl rfl rfl rfl rfl rfl

theorem trim {s : State} (h : DataInv s) (k : Nat) : DataInv (rbufTrim k s) :=
  ⟨memory_wf_drop _ _ _ h.capacity, h.result, fun hc => by simp [h.session.1 hc], h.session.2⟩

theorem dropOne {s : State} (h : DataInv s) : DataInv (dropOne s) := (h.recordGroups _).trim 1

theorem append {s : State} (h : DataInv s) (ho : s.sess = .opened) {c : Bytes} (hc : c.length ≤ s.readRequest) :
    DataInv (rbufAppend c s) :=
  ⟨memory_wf_append _ _ _ h.capacity hc, h.result, fun hs => by simp [ho] at hs, h.session.2⟩

theorem endSession {s : State} (h : DataInv s) : DataInv (endSession s) where
  capacity := memory_wf_drop _ _ _ h.capacity
  result := h.result
  session := ⟨fun _ => endSession_rbuf s, fun hs => by simp at hs⟩

/-! ## Every end of a command meets the invariant -/

theorem finish {s : State} (h : DataInv s) (c : Option Cause) : Inv (finish c s).state where
  capacity := h.capacity
  result := ⟨h.result.1, by cases c <;> simp⟩
  fsm := rfl
  session := h.session

theorem noMessage {s : State} (h : DataInv s) (c : Cause) : Inv (noMessage c s).state :=
  (h.withRxmsg (by decide)).finish (some c)

theorem deliver {s : State} (h : DataInv s) {m : Message} {k : Nat} (hd : decodeFrame s.rbuf = .complete m k) :
    Inv (deliver m k s).state :=
  (((h.recordGroups _).trim k).withRxmsg (decodeFrame_canonical hd)).finish none

theorem decodeAgain {s : State} (h : DataInv s) : Inv (decodeAgain s).state := by
  obtain ⟨m, k, hd, e⟩ | ⟨r, -, e⟩ | ⟨-, e⟩ := decodeAgain_cases s <;> rw [e]
  · exact h.deliver hd
  · exact h.dropOne.noMessage _
  · exact h.noMessage _

theorem afterWrite {s : State} (h : DataInv s) (n k : Nat) : Inv (afterWrite n k s).state := by
  obtain ⟨c, e⟩ := afterWrite_eq_finish n k s
  rw [e]
  exact h.finish c

/-- The session that OPEN opens has an open device (R191, R205). -/
theorem afterOpen {s : State} (h : DataInv s) {ok : Bool} (hok : ok = true → s.env.dev.isOpen = true) :
    Inv (afterOpen ok s).state := by
  obtain ⟨ht, e⟩ | ⟨-, e⟩ := afterOpen_cases ok s <;> rw [e]
  · have opened : DataInv { rbufTrim s.rlen s with sess := .opened, hist := ⟨[], []⟩ } :=
      ⟨memory_wf_drop _ _ _ h.capacity, h.result, fun hs => (by cases hs), fun _ => hok ht⟩
    exact opened.finish none
  · exact h.finish _

theorem recvWait {s : State} (h : DataInv s) (ho : s.sess = .opened) : Inv (recvWait s).state := by
  obtain ⟨e, ds, n, ⟨q, hr⟩ | ⟨q, hr | hr | ⟨c, -, hc, hr⟩⟩⟩ := recvWait_cases s <;> rw [hr]
  · exact (h.moved (fun _ => q.dev) ds n).noMessage _
  · exact (h.moved (fun _ => q.dev) ds n).noMessage _
  · exact (h.moved (fun _ => q.dev) ds n).noMessage _
  · exact ((h.moved (fun _ => q.dev) ds n).append ho hc).decodeAgain

/-! ## The commands as transactions -/

theorem commandRecv {s : State} (h : DataInv s) : Inv (commandRecv s).state := by
  obtain ⟨-, e⟩ | ⟨-, m, k, hd, e⟩ | ⟨ho, r, -, e⟩ | ⟨ho, -, e⟩ := commandRecv_cases s <;> rw [e]
  · exact h.noMessage _
  · exact h.deliver hd
  · exact h.dropOne.recvWait ho
  · exact h.recvWait ho

theorem commandSend {s : State} (h : DataInv s) : Inv (commandSend s).state := by
  obtain ⟨-, e⟩ | ⟨-, -, e⟩ | ⟨-, -, e⟩ := commandSend_cases s <;> rw [e]
  · exact h.finish _
  · exact h.finish _
  · rw [callWrite_moved]
    exact (h.moved (fun _ => by simp [callWrite_eq]) _ _).afterWrite _ _

theorem commandOpen {s : State} (h : DataInv s) : Inv (commandOpen s).state := by
  obtain ⟨-, e⟩ | ⟨-, -, e⟩ | ⟨hc, -, e⟩ := commandOpen_cases s <;> rw [e]
  · exact h.finish _
  · exact h.finish _
  · have closed : s.sess ≠ .opened := by simp [hc]
    rw [callOpen_moved]
    refine (h.moved (fun ho => absurd ho closed) _ _).afterOpen fun hok => ?_
    simp only [callOpen_eq] at hok ⊢
    exact openPort_isOpen _ _ _ _ hok

theorem commandClose {s : State} (h : DataInv s) : Inv (commandClose s).state := by
  obtain ⟨-, e⟩ | ⟨-, e⟩ := commandClose_cases s <;> rw [e]
  · rw [callClose_moved]
    exact (h.endSession.moved (fun ho => by simp at ho) _ _).finish none
  · exact h.finish none

theorem runCommand {s : State} (h : DataInv s) (c : Command) : Inv (runCommand c s).state := by
  cases c with
  | openSession => exact h.commandOpen
  | closeSession => exact h.commandClose
  | send => exact h.commandSend
  | recv => exact h.commandRecv
  | chbaud | reserved => exact h.finish _

/-! ## The commands on the state machine -/

theorem beginCall {s : State} (h : DataInv s) {f : Fsm} {wr rd : Option Nat}
    (hf : FsmInv (beginCall f wr rd s) = true) : Inv (beginCall f wr rd s) :=
  (h.congr (by simp) (by simp) (by simp) (by simp) (by simp) (by simp)).inv hf

theorem enter {s : State} (h : DataInv s) {f : Fsm} (hf : FsmInv (enter f s) = true) : Inv (enter f s) :=
  (h.congr (t := Machine.enter f s) rfl rfl rfl rfl rfl rfl).inv hf

theorem startCommand {s : State} (h : DataInv s) (c : Command) : Inv (startCommand c s) := by
  cases c with
  | openSession =>
    obtain ⟨-, e⟩ | ⟨hc, hok, e⟩ | ⟨-, -, e⟩ := startOpen_cases s <;> rw [e]
    · exact h.finish _
    · exact h.beginCall (by simpa [FsmInv, State.openOperandsOk, hc] using hok)
    · exact h.finish _
  | closeSession =>
    obtain ⟨-, e⟩ | ⟨-, e⟩ := startClose_cases s <;> rw [e]
    · exact h.endSession.beginCall (by simp [FsmInv])
    · exact h.finish none
  | send => exact h.enter rfl
  | recv =>
    obtain ⟨ho, e⟩ | ⟨-, e⟩ := startRecv_cases s <;> rw [e]
    · exact h.enter (by simp [FsmInv, State.quiet, ho])
    · exact h.noMessage _
  | chbaud | reserved => exact h.finish _

theorem fromSEncode {s : State} (h : DataInv s) : Inv (fromSEncode s) := by
  obtain ⟨-, e⟩ | ⟨ho, hok, e⟩ | ⟨-, -, e⟩ := fromSEncode_cases s <;> rw [e]
  · exact h.finish _
  · exact h.beginCall (by simpa [FsmInv, State.sendOperandOk, State.txmsg, timerWithin, ho] using hok)
  · exact h.finish _

/-- `R_WAIT` is entered with room in the buffer: it is Incomplete, or a byte has just been dropped (R180). -/
theorem fromRDecode1 {s : State} (h : DataInv s) (ho : s.sess = .opened) : Inv (fromRDecode1 s) := by
  have wait {u : State} (hu : DataInv u) (hou : u.sess = .opened) (room : u.hasRoom = true) :
      Inv (Machine.beginCall .rWait none (some Config.rdTimeoutMs) u) := by
    refine hu.beginCall ?_
    have hr := hasRoom_congr (beginCall_cap .rWait none (some Config.rdTimeoutMs) u) (beginCall_rbuf _ _ _ u)
    simp [FsmInv, timerWithin, hou, hr, room]
  obtain ⟨m, k, hd, e⟩ | ⟨r, hd, e⟩ | ⟨hd, e⟩ := fromRDecode1_cases s <;> rw [e]
  · exact h.deliver hd
  · exact wait h.dropOne ho (hasRoom_dropOne h.capacity hd)
  · exact wait h ho (hasRoom_incomplete hd)

theorem fromRAvail {s : State} (h : DataInv s) (ho : s.sess = .opened) (room : s.hasRoom = true) :
    Inv (fromRAvail s) := by
  have called : DataInv (callAvailable s).2 := by
    rw [callAvailable_moved]
    exact h.moved (fun _ => (callAvailable_quiet s).dev) _ _
  obtain ⟨-, e⟩ | ⟨-, e⟩ := fromRAvail_cases s <;> rw [e]
  · exact called.noMessage _
  · refine called.beginCall ?_
    have hr : (Machine.beginCall .rRead none (some Config.rdTimeoutMs) (callAvailable s).2).hasRoom = s.hasRoom :=
      hasRoom_congr (by simp) (by simp)
    simp [FsmInv, timerWithin, ho, hr, room]

/-! ## The end of a transport call -/

theorem writeEnds {s : State} (h : DataInv s) (x : Bool) (d : Draw) : Inv (writeEnds x d s) :=
  (h.withEnv fun _ => write_dev _ x d s.env).afterWrite _ _

theorem waitEnds {s : State} (h : DataInv s) (ho : s.sess = .opened) (room : s.hasRoom = true) (x : Bool)
    (d : Draw) : Inv (waitEnds x d s) := by
  have waited := h.withEnv fun _ => waitReadable_dev x d s.env
  obtain ⟨-, e⟩ | ⟨-, e⟩ := waitEnds_cases x d s <;> rw [e]
  · exact waited.enter (fsmInv_rAvail ho room)
  · exact waited.noMessage _

theorem readEnds {s : State} (h : DataInv s) (ho : s.sess = .opened) (x : Bool) (d : Draw) :
    Inv (readEnds x d s) := by
  have called := h.withEnv fun _ => read_dev s.readRequest d s.env
  obtain ⟨-, e⟩ | ⟨-, e⟩ := readEnds_cases x d s <;> rw [e]
  · exact called.noMessage _
  · exact (called.append ho (read_length s.readRequest d s.env)).enter (by simp [FsmInv, State.quiet, ho])

theorem openEnds {s : State} (h : DataInv s) (hc : s.sess = .closed) (x : Bool) (d : Draw) : Inv (openEnds x d s) :=
  (h.withEnv fun ho => by simp [hc] at ho).afterOpen (openPort_isOpen _ _ d s.env)

theorem closeEnds {s : State} (h : DataInv s) (hc : s.sess = .closed) (x : Bool) (d : Draw) :
    Inv (closeEnds x d s) :=
  (h.withEnv fun ho => by simp [hc] at ho).endSession.finish none

end DataInv

/-! ## Every step keeps the invariant -/

theorem Inv.waitEnd {s : State} (h : Inv s) (x : Bool) (d : Draw) : Inv (waitEnd x d s) := by
  have hf := h.fsm
  unfold Machine.waitEnd
  cases hs : s.fsm <;> simp only [FsmInv, hs, Bool.and_eq_true, beq_iff_eq] at hf
  case sWrite => exact h.data.writeEnds x d
  case rWait =>
    obtain ⟨⟨⟨⟨ho, room⟩, -⟩, -⟩, -⟩ := hf
    exact h.data.waitEnds ho room x d
  case rRead =>
    obtain ⟨⟨⟨⟨ho, -⟩, -⟩, -⟩, -⟩ := hf
    exact h.data.readEnds ho x d
  case oOpening =>
    obtain ⟨⟨⟨⟨hc, -⟩, -⟩, -⟩, -⟩ := hf
    exact h.data.openEnds hc x d
  case cClosing =>
    obtain ⟨⟨⟨hc, -⟩, -⟩, -⟩ := hf
    exact h.data.closeEnds hc x d
  all_goals exact h

/-- A waiting state has its call in progress (log 1). -/
theorem call_of_waits {s : State} (hf : FsmInv s = true) (hw : s.fsm.waits = true) : ∃ d, s.call = some d := by
  apply Option.isSome_iff_exists.mp
  cases hs : s.fsm <;> simp only [FsmInv, hs, Fsm.waits, Bool.and_eq_true, Bool.false_eq_true] at hf hw
  case sWrite | rWait | rRead | oOpening | cClosing => exact hf.2

theorem timerWithin_pred {bound : Nat} {timer : Option Nat} (h : timerWithin bound timer = true) :
    timerWithin bound (timer.map (· - 1)) = true := by
  cases timer with
  | none => exact h
  | some t => simp [timerWithin] at h ⊢; omega

theorem fsmInv_tickOnce {s : State} (hf : FsmInv s = true) (hw : s.fsm.waits = true) (d : Draw) :
    FsmInv (tickOnce d s) = true := by
  have hr : (tickOnce d s).hasRoom = s.hasRoom := hasRoom_congr rfl rfl
  have hm : (tickOnce d s).sendOperandOk = s.sendOperandOk := rfl
  have ho : (tickOnce d s).openOperandsOk = s.openOperandsOk := rfl
  cases hs : s.fsm <;> simp only [FsmInv, hs, Fsm.waits, Bool.false_eq_true, Bool.and_eq_true] at hf hw
  case sWrite | rWait | rRead | oOpening | cClosing => simp_all [FsmInv, timerWithin_pred]

theorem Inv.tickOnce {s : State} (h : Inv s) (hw : s.fsm.waits = true) (d : Draw) : Inv (tickOnce d s) :=
  (h.data.congr (t := Machine.tickOnce d s) rfl rfl rfl rfl rfl rfl).inv (fsmInv_tickOnce h.fsm hw d)

theorem Inv.transition {s : State} (h : Inv s) : Inv (transition s) := by
  by_cases hw : s.fsm.waits = true
  · obtain ⟨d, hc⟩ := call_of_waits h.fsm hw
    obtain ⟨x, -, e⟩ | ⟨-, -, e⟩ := transition_wait_cases hw hc <;> rw [e]
    · exact h.waitEnd x d
    · exact h.tickOnce hw d
  · have hf := h.fsm
    unfold Machine.transition
    cases hs : s.fsm <;> simp only [FsmInv, hs, Fsm.waits, Bool.and_eq_true, beq_iff_eq, not_true_eq_false] at hf hw
    case idle => exact h
    case sEncode => exact h.data.fromSEncode
    case rDecode1 => exact h.data.fromRDecode1 hf.1
    case rAvail => exact h.data.fromRAvail hf.1.1 hf.1.2
    case rDecode2 => exact h.data.decodeAgain

/-- Hardware reset meets the invariant whatever it interrupts (R270, R272). -/
theorem inv_hardReset (s : State) : Inv (hardReset s) where
  capacity := memory_wf_nil s.cap
  result := ⟨show zeroMsg.canonical = true by decide, .inl rfl⟩
  fsm := rfl
  session := ⟨fun _ => rfl, fun ho => by simp [hardReset] at ho⟩

/-- Settles O52, one case of `step_next_cases` each. -/
theorem stepKeepsTheInvariant : Obligations.StepKeepsTheInvariant := by
  intro s t h hstep
  obtain ⟨-, -, rfl⟩ | ⟨rest, -, rfl⟩ | ⟨-, p, rest, -, rfl⟩ | ⟨-, p, rest, -, rfl⟩ | ⟨-, rfl⟩ :=
    step_next_cases hstep
  · exact h
  · exact inv_hardReset _
  · exact (h.data.load p rest).runCommand p.command
  · exact (h.data.load p rest).startCommand p.command
  · exact h.transition

/-! ## After reset -/

/-- Settles O43, field by field. -/
theorem stateAfterReset : Obligations.StateAfterReset :=
  ⟨rfl, rfl, rfl, rfl, rfl, rfl, rfl, rfl, rfl⟩

/-- Settles O51: the buffer is empty, the registers are zero, and nothing is open. -/
theorem invariantAtReset : Obligations.InvariantAtReset := by
  have closed : State.reset.sess ≠ .opened := by decide
  refine ⟨⟨memory_wf_reset, ⟨?_, .inl rfl⟩, rfl, fun _ => rfl, fun ho => absurd ho closed⟩, fun ho => absurd ho closed⟩
  show zeroMsg.canonical = true
  decide

/-! ## When the session opens and closes -/

/-- How an OPEN that succeeds leaves the registers (R213). -/
structure JustOpened (t : State) : Prop where
  sess : t.sess = .opened
  rbuf : t.rbuf = []
  fsm : t.fsm = .idle
  status : t.status = Config.statusOk

theorem afterOpen_sess (ok : Bool) (s : State) :
    (afterOpen ok s).state.sess = s.sess ∨ JustOpened (afterOpen ok s).state := by
  obtain ⟨-, e⟩ | ⟨-, e⟩ := afterOpen_cases ok s <;> rw [e]
  · exact .inr ⟨rfl, by simp [State.rlen], rfl, rfl⟩
  · exact .inl rfl

theorem afterWrite_sess (n k : Nat) (s : State) : (afterWrite n k s).state.sess = s.sess := by
  obtain ⟨c, e⟩ := afterWrite_eq_finish n k s
  rw [e]; rfl

/-- OPEN changes the session only where it succeeds (R213, R214). -/
theorem commandOpen_sess (s : State) :
    (commandOpen s).state.sess = s.sess ∨ JustOpened (commandOpen s).state := by
  obtain ⟨-, e⟩ | ⟨-, -, e⟩ | ⟨-, -, e⟩ := commandOpen_cases s <;> rw [e]
  · exact .inl rfl
  · exact .inl rfl
  · exact (afterOpen_sess _ _).imp_left fun h => h.trans (callOpen_sess _ _ s)

theorem commandClose_sess (s : State) : (commandClose s).state.sess = .closed := by
  obtain ⟨-, e⟩ | ⟨hc, e⟩ := commandClose_cases s <;> rw [e]
  · rfl
  · exact hc

/-- A transaction that changes the session is an OPEN that succeeds or a CLOSE. -/
theorem runCommand_sess (c : Command) (s : State) :
    (runCommand c s).state.sess = s.sess ∨ (c = .openSession ∧ JustOpened (runCommand c s).state) ∨
      (c = .closeSession ∧ (runCommand c s).state.sess = .closed) := by
  cases c with
  | openSession => exact (commandOpen_sess s).imp_right fun h => .inl ⟨rfl, h⟩
  | closeSession => exact .inr (.inr ⟨rfl, commandClose_sess s⟩)
  | send => exact .inl (commandSend_frame s).2.1
  | recv => exact .inl (commandRecv_sess s)
  | chbaud | reserved => exact .inl rfl

/-- Of the commands only CLOSE changes the session where it starts (R21, log 16). -/
theorem startCommand_sess (c : Command) (s : State) :
    (startCommand c s).sess = s.sess ∨ (c = .closeSession ∧ (startCommand c s).sess = .closed) := by
  cases c with
  | openSession =>
    obtain ⟨-, e⟩ | ⟨-, -, e⟩ | ⟨-, -, e⟩ := startOpen_cases s <;> rw [e]
    · exact .inl rfl
    · exact .inl (beginCall_sess _ _ _ s)
    · exact .inl rfl
  | closeSession =>
    obtain ⟨-, e⟩ | ⟨-, e⟩ := startClose_cases s <;> rw [e]
    · exact .inr ⟨rfl, beginCall_sess _ _ _ (endSession s)⟩
    · exact .inl rfl
  | recv =>
    obtain ⟨-, e⟩ | ⟨-, e⟩ := startRecv_cases s <;> rw [e]
    · exact .inl rfl
    · exact .inl rfl
  | send | chbaud | reserved => exact .inl rfl

/-- The end of a transport call changes the session only where it ends an OPEN with success. -/
theorem waitEnd_sess {s : State} (hf : FsmInv s = true) (x : Bool) (d : Draw) :
    (waitEnd x d s).sess = s.sess ∨ (s.fsm = .oOpening ∧ JustOpened (waitEnd x d s)) := by
  unfold waitEnd
  cases hs : s.fsm
  case sWrite => exact .inl (afterWrite_sess _ _ _)
  case rWait => obtain ⟨-, e⟩ | ⟨-, e⟩ := waitEnds_cases x d s <;> simp only [e] <;> exact .inl rfl
  case rRead => obtain ⟨-, e⟩ | ⟨-, e⟩ := readEnds_cases x d s <;> simp only [e] <;> exact .inl rfl
  case oOpening => exact (afterOpen_sess _ _).imp_right fun h => ⟨rfl, h⟩
  case cClosing =>
    simp only [FsmInv, hs, Bool.and_eq_true, beq_iff_eq] at hf
    obtain ⟨⟨⟨hc, -⟩, -⟩, -⟩ := hf
    exact .inl hc.symm
  all_goals exact .inl rfl

/-- A transition changes the session only where it ends an OPEN with success. -/
theorem transition_sess {s : State} (hf : FsmInv s = true) :
    (transition s).sess = s.sess ∨ (s.fsm = .oOpening ∧ JustOpened (transition s)) := by
  by_cases hw : s.fsm.waits = true
  · obtain ⟨d, hc⟩ := call_of_waits hf hw
    obtain ⟨x, -, e⟩ | ⟨-, -, e⟩ := transition_wait_cases hw hc <;> rw [e]
    · exact waitEnd_sess hf x d
    · exact .inl rfl
  · left
    unfold transition
    cases hs : s.fsm <;> simp only [hs, Fsm.waits, not_true_eq_false] at hw
    case idle => rfl
    case sEncode =>
      obtain ⟨-, e⟩ | ⟨-, -, e⟩ | ⟨-, -, e⟩ := fromSEncode_cases s <;> simp [e]
    case rDecode1 =>
      obtain ⟨m, k, -, e⟩ | ⟨r, -, e⟩ | ⟨-, e⟩ := fromRDecode1_cases s <;> simp [e]
    case rAvail =>
      obtain ⟨-, e⟩ | ⟨-, e⟩ := fromRAvail_cases s <;> simp [e]
    case rDecode2 => exact decodeAgain_sess s

theorem Session.eq_closed {a : Session} (h : a ≠ .opened) : a = .closed := by
  cases a
  · rfl
  · exact absurd rfl h

theorem Session.eq_opened {a : Session} (h : a ≠ .closed) : a = .opened := by
  cases a
  · exact absurd rfl h
  · rfl

/-- A CLOSE started on the state machine ends the session at once (R21, log 16). -/
theorem startCommand_close_opened {s : State} (ho : s.sess = .opened) :
    startCommand .closeSession s = beginCall .cClosing none none (endSession s) := by
  obtain ⟨-, e⟩ | ⟨hc, -⟩ := startClose_cases s
  · exact e
  · rw [ho] at hc; cases hc

/-- Settles O60: which step changed the session is read off `step_next_cases`; that a closed session has an empty buffer
is the invariant of the next state. -/
theorem sessionIsOpenFromOpenToTheStartOfClose : Obligations.SessionIsOpenFromOpenToTheStartOfClose := by
  refine ⟨fun s t h hstep hne => ?_, fun s p rest hi ho hp hcmd => ?_⟩
  · have closing (hc : t.sess = .closed) : s.sess = .opened ∧ t.rbuf = [] :=
      ⟨Session.eq_opened fun hs => hne (hc.trans hs.symm), (stepKeepsTheInvariant s t h hstep).session.1 hc⟩
    have opening (ho : JustOpened t) : s.sess = .closed := Session.eq_closed fun hs => hne (ho.sess.trans hs.symm)
    obtain ⟨-, -, rfl⟩ | ⟨rest, hp, rfl⟩ | ⟨hi, p, rest, hp, rfl⟩ | ⟨hi, p, rest, hp, rfl⟩ | ⟨-, rfl⟩ :=
      step_next_cases hstep
    · exact absurd rfl hne
    · obtain ⟨hs, hb⟩ := closing rfl
      exact ⟨hb, .inr ⟨hs, rfl, .inl ⟨rest, hp⟩⟩⟩
    · obtain e | ⟨hcmd, hopen⟩ | ⟨hcmd, hc⟩ := runCommand_sess p.command (s.load p rest)
      · exact absurd e hne
      · exact ⟨hopen.rbuf, .inl ⟨opening hopen, hopen.sess, hopen.fsm, hopen.status,
          .inr ⟨hi, p, rest, selectCommand_eq_openSession.mp hcmd, hp⟩⟩⟩
      · obtain ⟨hs, hb⟩ := closing hc
        exact ⟨hb, .inr ⟨hs, hc, .inr ⟨hi, p, rest, selectCommand_eq_closeSession.mp hcmd, hp.imp_right .inr⟩⟩⟩
    · obtain e | ⟨hcmd, hc⟩ := startCommand_sess p.command (s.load p rest)
      · exact absurd e hne
      · obtain ⟨hs, hb⟩ := closing hc
        exact ⟨hb, .inr ⟨hs, hc, .inr ⟨hi, p, rest, selectCommand_eq_closeSession.mp hcmd, .inr (.inl hp)⟩⟩⟩
    · obtain e | ⟨hopening, hopen⟩ := transition_sess h.fsm
      · exact absurd e hne
      · exact ⟨hopen.rbuf, .inl ⟨opening hopen, hopen.sess, hopen.fsm, hopen.status, .inl hopening⟩⟩
  · have hc : p.command = .closeSession := selectCommand_eq_closeSession.mpr hcmd
    refine ⟨_, step_start hi hp, ?_⟩
    rw [hc, startCommand_close_opened (s := s.load p rest) ho]
    exact ⟨by simp, by simp, by simp, by simp⟩

end Sys2Proof.Machine

/-! Proofs of the family 20_memory.md: the residual buffer loses no byte, and only writes reach the wire. First the
wire, then the frame the decoder takes off the buffer, then how each part of the machine accounts for the bytes. -/

namespace Sys2Proof.Machine

/-! ## The bytes on the wire -/

/-- SEND puts the first `k` bytes of TXMSG's frame on the wire, none where it refuses (R141, R142, R145). -/
theorem commandSend_wireTx (s : State) :
    ∃ k, (commandSend s).state.env.wireTx = s.env.wireTx ++ (encodeMessage s.txmsg).take k := by
  obtain ⟨-, e⟩ | ⟨-, -, e⟩ | ⟨-, -, e⟩ := commandSend_cases s <;> rw [e]
  · exact ⟨0, by simp [raise, finish]⟩
  · exact ⟨0, by simp [raise, finish]⟩
  · obtain ⟨c, hc⟩ := afterWrite_eq_finish (encodeMessage s.txmsg).length
      (callWrite (encodeMessage s.txmsg) Config.wrTimeoutMs s).1
      (callWrite (encodeMessage s.txmsg) Config.wrTimeoutMs s).2
    rw [hc, callWrite_eq]
    exact ⟨_, write_wireTx _ _ _ _⟩

theorem decodeAgain_env (s : State) : (decodeAgain s).state.env = s.env := by
  obtain ⟨m, k, -, e⟩ | ⟨r, -, e⟩ | ⟨-, e⟩ := decodeAgain_cases s <;> rw [e] <;> rfl

theorem recvWait_wireTx (s : State) : (recvWait s).state.env.wireTx = s.env.wireTx := by
  obtain ⟨e, ds, n, ⟨q, h⟩ | ⟨q, h | h | ⟨c, -, -, h⟩⟩⟩ := recvWait_cases s <;> rw [h]
  · exact q.wireTx
  · exact q.wireTx
  · exact q.wireTx
  · rw [decodeAgain_env]
    exact q.wireTx

theorem commandRecv_wireTx (s : State) : (commandRecv s).state.env.wireTx = s.env.wireTx := by
  obtain ⟨-, e⟩ | ⟨-, m, k, -, e⟩ | ⟨-, r, -, e⟩ | ⟨-, -, e⟩ := commandRecv_cases s <;> rw [e]
  · rfl
  · rfl
  · exact recvWait_wireTx (dropOne s)
  · exact recvWait_wireTx s

theorem callOpen_wireTx (x y : Nat) (s : State) : (callOpen x y s).2.env.wireTx = s.env.wireTx := by
  simp [callOpen_eq]

theorem commandOpen_wireTx (s : State) : (commandOpen s).state.env.wireTx = s.env.wireTx := by
  obtain ⟨-, e⟩ | ⟨-, -, e⟩ | ⟨-, -, e⟩ := commandOpen_cases s <;> rw [e]
  · rfl
  · rfl
  · obtain ⟨-, ha⟩ | ⟨-, ha⟩ := afterOpen_cases (callOpen s.host.port Config.baudDefault s).1
      (callOpen s.host.port Config.baudDefault s).2 <;> rw [ha]
    · exact callOpen_wireTx _ _ s
    · exact callOpen_wireTx _ _ s

theorem callClose_wireTx (s : State) : (callClose s).env.wireTx = s.env.wireTx := by simp

theorem commandClose_wireTx (s : State) : (commandClose s).state.env.wireTx = s.env.wireTx := by
  obtain ⟨-, e⟩ | ⟨-, e⟩ := commandClose_cases s <;> rw [e]
  · exact callClose_wireTx s
  · rfl

/-- No command but SEND puts bytes on the wire (R50). -/
theorem runCommand_wireTx {c : Command} (hc : c ≠ .send) (s : State) :
    (runCommand c s).state.env.wireTx = s.env.wireTx := by
  cases c with
  | openSession => exact commandOpen_wireTx s
  | closeSession => exact commandClose_wireTx s
  | send => exact absurd rfl hc
  | recv => exact commandRecv_wireTx s
  | chbaud | reserved => rfl

/-- Of the calls only `T.write` puts bytes on the wire, the first of those it is given (R195). -/
theorem exec_call_wireTx {i : Instr} (hi : i.hasPattern = false) {s t : State} (h : exec i s = .next t) :
    t.env.wireTx = s.env.wireTx ∨
      ∃ bytes ms k, i = .tWrite bytes ms ∧ t.env.wireTx = s.env.wireTx ++ bytes.take k := by
  cases i with
  | tWrite b ms =>
    injection h with h
    subst h
    refine .inr ⟨b, ms, (callWrite b ms s).1, rfl, ?_⟩
    rw [answer_env, callWrite_eq]
    exact write_wireTx _ _ _ _
  | encode | decode | tPurge => injection h with h; subst h; exact .inl rfl
  | tOpen x y => injection h with h; subst h; exact .inl (callOpen_wireTx x y s)
  | tClose => injection h with h; subst h; exact .inl (callClose_wireTx s)
  | tWaitReadable ms => injection h with h; subst h; exact .inl (callWait_quiet ms s).wireTx
  | tAvailable => injection h with h; subst h; exact .inl (callAvailable_quiet s).wireTx
  | tRead n ms => injection h with h; subst h; exact .inl (callRead_quiet n ms s).wireTx
  | data | remote | badTag | openCmd | closeCmd | send | recv | chbaud | cmdReserved => cases hi

/-- Settles O57, one case of `exec_next_cases` each: only a call or a command reaches the environment. -/
theorem onlySendPutsBytesOnTheWire : Obligations.OnlySendPutsBytesOnTheWire := by
  intro i s t h hne
  obtain ⟨hi, -⟩ | ⟨c, rfl, -, rfl⟩ | ⟨c, l, p, -, -, rfl⟩ | ⟨c, -, rfl⟩ | ⟨-, rfl⟩ := exec_next_cases h
  · exact .inr ((exec_call_wireTx hi h).resolve_left hne)
  · by_cases hc : c = .send
    · subst hc
      exact .inl ⟨rfl, commandSend_wireTx s⟩
    · exact absurd (runCommand_wireTx hc s) hne
  · exact absurd rfl hne
  · exact absurd rfl hne
  · exact absurd rfl hne

/-! ## The frame at the head of the buffer -/

theorem idHigh_joinId (h l : Byte) : idHigh (joinId h l) = h := by
  have hl := l.isLt
  apply BitVec.eq_of_toNat_eq
  rw [idHigh_toNat, joinId_toNat]
  omega

theorem idLow_joinId (h l : Byte) : idLow (joinId h l) = l := by
  have hl := l.isLt
  apply BitVec.eq_of_toNat_eq
  rw [idLow_toNat, joinId_toNat]
  omega

theorem encodable_of_canonical {m : Message} (h : m.canonical = true) : m.encodable = true := by
  simp only [Message.canonical, Bool.and_eq_true] at h
  exact h.1.1

/-- The bytes a Complete verdict consumes are the wire bytes of its message (R69, R119, R123). -/
theorem decodeFrame_complete_take {b : Bytes} {m : Message} {k : Nat} (h : decodeFrame b = .complete m k) :
    b.take k = encodeFrame m := by
  obtain ⟨hi, lo, rest, rfl, rfl, rfl⟩ | ⟨L, hi, lo, payload, rest, hp, hL, rfl, rfl, rfl⟩ := decodeFrame_complete h
  · rw [encodeFrame_remote _ rfl]
    simp [remoteMessage, idHigh_joinId, idLow_joinId]
  · rw [encodeFrame_data _ rfl, dataMessage_payload _ _ _ hp hL]
    simp [dataMessage, idHigh_joinId, idLow_joinId, Nat.add_comm 4, ← hp]

theorem frame_exact {b : Bytes} {m : Message} {k : Nat} (h : decodeFrame b = .complete m k) :
    (Group.frame (b.take k) m).exact = true := by
  simp [Group.exact, encodable_of_canonical (decodeFrame_canonical h), decodeFrame_complete_take h]

/-! ## Accounting for the bytes received -/

/-- The bytes received on the way from `s` to `t`: behind the buffer of `s` they are the groups removed on the way
followed by the buffer of `t`; and the session is the same (R69). -/
structure Accounted (s t : State) : Prop where
  sess : t.sess = s.sess
  bytes : ∃ gs c, t.hist.groups = s.hist.groups ++ gs ∧ t.hist.rxAll = s.hist.rxAll ++ c ∧
    s.rbuf ++ c = gs.flatMap Group.bytes ++ t.rbuf ∧ ∀ g ∈ gs, g.exact = true

namespace Accounted

theorem of_same {s t : State} (hsess : t.sess = s.sess) (hrbuf : t.rbuf = s.rbuf) (hhist : t.hist = s.hist) :
    Accounted s t :=
  ⟨hsess, [], [], by simp [hhist], by simp [hhist], by simp [hrbuf], by simp⟩

theorem trans {s t u : State} (h : Accounted s t) (k : Accounted t u) : Accounted s u := by
  obtain ⟨hs, gs, c, hg, hr, hb, hx⟩ := h
  obtain ⟨ks, gs', c', kg, kr, kb, kx⟩ := k
  refine ⟨ks.trans hs, gs ++ gs', c ++ c', by rw [kg, hg, List.append_assoc], by rw [kr, hr, List.append_assoc], ?_, ?_⟩
  · calc s.rbuf ++ (c ++ c')
        = gs.flatMap Group.bytes ++ (t.rbuf ++ c') := by rw [← List.append_assoc, hb, List.append_assoc]
      _ = (gs ++ gs').flatMap Group.bytes ++ u.rbuf := by rw [kb, List.flatMap_append, List.append_assoc]
  · intro g hmem
    exact (List.mem_append.mp hmem).elim (hx g) (kx g)

/-- The leading bytes leave the buffer as groups that hold exactly them. -/
theorem trim {s : State} {gs : List Group} {k : Nat} (hb : gs.flatMap Group.bytes = s.rbuf.take k)
    (hx : ∀ g ∈ gs, g.exact = true) : Accounted s (rbufTrim k (s.recordGroups gs)) :=
  ⟨rfl, gs, [], rfl, (List.append_nil _).symm, by simp [hb], hx⟩

theorem dropOne (s : State) : Accounted s (dropOne s) := by
  refine trim ?_ ?_
  · cases s.rbuf <;> rfl
  · intro g hg
    obtain ⟨b, -, rfl⟩ := List.mem_map.mp hg
    rfl

theorem append (c : Bytes) (s : State) : Accounted s (rbufAppend c s) :=
  ⟨rfl, [], c, (List.append_nil _).symm, rfl, rfl, by simp⟩

theorem moved (s : State) (e : Env) (ds : List Draw) (n : Nat) : Accounted s (moved s e ds n) :=
  of_same rfl rfl rfl

theorem beginCall (f : Fsm) (wr rd : Option Nat) (s : State) : Accounted s (beginCall f wr rd s) :=
  of_same (by simp) (by simp) (by simp)

/-! The ends of the commands write neither the session nor the buffer. -/

theorem finish {s t : State} (h : Accounted s t) (c : Option Cause) : Accounted s (finish c t).state :=
  ⟨h.sess, h.bytes⟩

theorem noMessage {s t : State} (h : Accounted s t) (c : Cause) : Accounted s (noMessage c t).state :=
  ⟨h.sess, h.bytes⟩

theorem deliver {s : State} {m : Message} {k : Nat} (hd : decodeFrame s.rbuf = .complete m k) :
    Accounted s (deliver m k s).state := by
  have h : Accounted s (rbufTrim k (s.recordGroups [.frame (s.rbuf.take k) m])) :=
    trim (by simp [Group.bytes]) fun g hg => by rw [List.mem_singleton.mp hg]; exact frame_exact hd
  exact ⟨h.sess, h.bytes⟩

theorem decodeAgain (s : State) : Accounted s (decodeAgain s).state := by
  obtain ⟨m, k, hd, e⟩ | ⟨r, -, e⟩ | ⟨-, e⟩ := decodeAgain_cases s <;> rw [e]
  · exact deliver hd
  · exact (dropOne s).noMessage _
  · exact of_same rfl rfl rfl

theorem recvWait (s : State) : Accounted s (recvWait s).state := by
  obtain ⟨e, ds, n, ⟨-, h⟩ | ⟨-, h | h | ⟨c, -, -, h⟩⟩⟩ := recvWait_cases s <;> rw [h]
  · exact of_same rfl rfl rfl
  · exact of_same rfl rfl rfl
  · exact of_same rfl rfl rfl
  · exact ((moved s e ds n).trans (append c _)).trans (decodeAgain _)

/-- RECV accounts for every byte it reads and every byte it removes (R69). -/
theorem commandRecv (s : State) : Accounted s (commandRecv s).state := by
  obtain ⟨-, e⟩ | ⟨-, m, k, hd, e⟩ | ⟨-, r, -, e⟩ | ⟨-, -, e⟩ := commandRecv_cases s <;> rw [e]
  · exact of_same rfl rfl rfl
  · exact deliver hd
  · exact (dropOne s).trans (recvWait _)
  · exact recvWait s

/-- SEND leaves the session, the buffer and the record as they are (R147). -/
theorem commandSend (s : State) : Accounted s (commandSend s).state := by
  obtain ⟨-, e⟩ | ⟨-, -, e⟩ | ⟨-, -, e⟩ := commandSend_cases s <;> rw [e]
  · exact of_same rfl rfl rfl
  · exact of_same rfl rfl rfl
  · obtain ⟨c, hc⟩ := afterWrite_eq_finish (encodeMessage s.txmsg).length
      (callWrite (encodeMessage s.txmsg) Config.wrTimeoutMs s).1
      (callWrite (encodeMessage s.txmsg) Config.wrTimeoutMs s).2
    rw [hc, callWrite_moved]
    exact (moved s _ _ _).finish c

theorem fromSEncode (s : State) : Accounted s (fromSEncode s) := by
  obtain ⟨-, e⟩ | ⟨-, -, e⟩ | ⟨-, -, e⟩ := fromSEncode_cases s <;> rw [e]
  · exact of_same rfl rfl rfl
  · exact beginCall _ _ _ s
  · exact of_same rfl rfl rfl

theorem fromRDecode1 (s : State) : Accounted s (fromRDecode1 s) := by
  obtain ⟨m, k, hd, e⟩ | ⟨r, -, e⟩ | ⟨-, e⟩ := fromRDecode1_cases s <;> rw [e]
  · exact deliver hd
  · exact (dropOne s).trans (beginCall _ _ _ _)
  · exact beginCall _ _ _ s

theorem fromRAvail (s : State) : Accounted s (fromRAvail s) := by
  obtain ⟨-, e⟩ | ⟨-, e⟩ := fromRAvail_cases s <;> rw [e, callAvailable_moved]
  · exact (moved s _ _ _).noMessage _
  · exact (moved s _ _ _).trans (beginCall _ _ _ _)

theorem writeEnds (x : Bool) (d : Draw) (s : State) : Accounted s (writeEnds x d s) := by
  obtain ⟨c, e⟩ := afterWrite_eq_finish (encodeMessage s.txmsg).length
    (s.env.write (encodeMessage s.txmsg) x d).1 { s with env := (s.env.write (encodeMessage s.txmsg) x d).2 }
  simp only [Machine.writeEnds, e]
  exact of_same rfl rfl rfl

theorem waitEnds (x : Bool) (d : Draw) (s : State) : Accounted s (waitEnds x d s) := by
  obtain ⟨-, e⟩ | ⟨-, e⟩ := waitEnds_cases x d s <;> rw [e] <;> exact of_same rfl rfl rfl

theorem readEnds (x : Bool) (d : Draw) (s : State) : Accounted s (readEnds x d s) := by
  obtain ⟨-, e⟩ | ⟨-, e⟩ := readEnds_cases x d s <;> rw [e]
  · exact of_same rfl rfl rfl
  · have appended := (moved s (s.env.read s.readRequest d).2 s.draws s.drawCount).trans
      (append (s.env.read s.readRequest d).1 _)
    exact ⟨appended.sess, appended.bytes⟩

end Accounted

/-! ## Every step keeps the conservation law -/

namespace Conserved

theorem of_accounted {s t : State} (h : Conserved s) (ha : Accounted s t) : Conserved t := by
  obtain ⟨hs, gs, c, hg, hr, hb, hx⟩ := ha
  intro ho
  obtain ⟨hall, hexact⟩ := h (hs.symm.trans ho)
  constructor
  · calc t.hist.rxAll
        = s.hist.groups.flatMap Group.bytes ++ (s.rbuf ++ c) := by rw [hr, hall, List.append_assoc]
      _ = t.hist.groups.flatMap Group.bytes ++ t.rbuf := by rw [hb, hg, List.flatMap_append, List.append_assoc]
  · intro g hmem
    rw [hg] at hmem
    exact (List.mem_append.mp hmem).elim (hexact g) (hx g)

/-- The law speaks of an open session only. -/
theorem of_closed {t : State} (hc : t.sess = .closed) : Conserved t := fun ho => by rw [hc] at ho; cases ho

/-- An OPEN that succeeds begins a new record over an empty buffer (R213). -/
theorem afterOpen {s : State} (h : Conserved s) (ok : Bool) : Conserved (afterOpen ok s).state := by
  obtain ⟨-, e⟩ | ⟨-, e⟩ := afterOpen_cases ok s <;> rw [e]
  · exact fun _ => ⟨by simp [State.rlen, succeed, Machine.finish], fun g hg => absurd hg List.not_mem_nil⟩
  · exact h

theorem commandOpen {s : State} (h : Conserved s) : Conserved (commandOpen s).state := by
  obtain ⟨-, e⟩ | ⟨-, -, e⟩ | ⟨-, -, e⟩ := commandOpen_cases s <;> rw [e]
  · exact h
  · exact h
  · rw [callOpen_moved]
    exact (h.of_accounted (.moved s _ _ _)).afterOpen _

theorem openEnds {s : State} (h : Conserved s) (x : Bool) (d : Draw) : Conserved (openEnds x d s) :=
  (h.of_accounted (.moved s _ s.draws s.drawCount)).afterOpen _

theorem runCommand {s : State} (h : Conserved s) (c : Command) : Conserved (runCommand c s).state := by
  cases c with
  | openSession => exact h.commandOpen
  | closeSession => exact of_closed (commandClose_sess s)
  | send => exact h.of_accounted (.commandSend s)
  | recv => exact h.of_accounted (.commandRecv s)
  | chbaud | reserved => exact h

theorem startCommand {s : State} (h : Conserved s) (c : Command) : Conserved (startCommand c s) := by
  cases c with
  | openSession =>
    obtain ⟨-, e⟩ | ⟨-, -, e⟩ | ⟨-, -, e⟩ := startOpen_cases s <;> rw [e]
    · exact h
    · exact h.of_accounted (.beginCall _ _ _ s)
    · exact h
  | closeSession =>
    obtain ⟨-, e⟩ | ⟨hc, e⟩ := startClose_cases s <;> rw [e]
    · exact of_closed (beginCall_sess _ _ _ _)
    · exact of_closed hc
  | recv =>
    obtain ⟨-, e⟩ | ⟨-, e⟩ := startRecv_cases s <;> rw [e]
    · exact h
    · exact h
  | send | chbaud | reserved => exact h

theorem waitEnd {s : State} (h : Conserved s) (x : Bool) (d : Draw) : Conserved (waitEnd x d s) := by
  unfold Machine.waitEnd
  cases s.fsm
  case sWrite => exact h.of_accounted (.writeEnds x d s)
  case rWait => exact h.of_accounted (.waitEnds x d s)
  case rRead => exact h.of_accounted (.readEnds x d s)
  case oOpening => exact h.openEnds x d
  case cClosing => exact of_closed rfl
  all_goals exact h

/-- Where no call is in progress a waiting state takes its draw, and the bytes stay as they are (log 1). -/
theorem transition_waits {s : State} (h : Conserved s) (hw : s.fsm.waits = true) : Conserved (transition s) := by
  cases hc : s.call with
  | none =>
    rw [Machine.transition_waits hw, whileWaiting, hc]
    exact h.of_accounted (.of_same (nextDraw_sess s) (nextDraw_rbuf s) (nextDraw_hist s))
  | some d =>
    obtain ⟨x, -, e⟩ | ⟨-, -, e⟩ := transition_wait_cases hw hc <;> rw [e]
    · exact h.waitEnd x d
    · exact h

theorem transition {s : State} (h : Conserved s) : Conserved (transition s) := by
  by_cases hw : s.fsm.waits = true
  · exact h.transition_waits hw
  · unfold Machine.transition
    cases hs : s.fsm <;> simp only [hs, Fsm.waits, not_true_eq_false] at hw
    case idle => exact h
    case sEncode => exact h.of_accounted (.fromSEncode s)
    case rDecode1 => exact h.of_accounted (.fromRDecode1 s)
    case rAvail => exact h.of_accounted (.fromRAvail s)
    case rDecode2 => exact h.of_accounted (.decodeAgain s)

end Conserved

/-- Settles O53, one case of `step_next_cases` each: RECV accounts for its bytes, OPEN begins a new record, and CLOSE
and a reset close the session. -/
theorem stepConservesReceivedBytes : Obligations.StepConservesReceivedBytes := by
  intro s t h hstep
  obtain ⟨-, -, rfl⟩ | ⟨rest, -, rfl⟩ | ⟨-, p, rest, -, rfl⟩ | ⟨-, p, rest, -, rfl⟩ | ⟨-, rfl⟩ :=
    step_next_cases hstep
  · exact h
  · exact .of_closed rfl
  · exact Conserved.runCommand (s := s.load p rest) h p.command
  · exact Conserved.startCommand (s := s.load p rest) h p.command
  · exact h.transition

end Sys2Proof.Machine

/-! Proofs of the family 30_encoding.md: the identifier's two bytes, the code words of the table, and the step that
runs the instruction it fetches. First what the decoder reads from each form of code word. -/

namespace Sys2Proof.Machine

/-! ## Identifier bytes -/

theorem joinId_idHigh_idLow (c : Half) : joinId (idHigh c) (idLow c) = c := by
  apply BitVec.eq_of_toNat_eq
  rw [joinId_toNat, idHigh_toNat, idLow_toNat]
  omega

/-- Settles O3: the bytes are the quotient and the remainder by 256. -/
theorem identifierSplitsAndJoinsExactly : Obligations.IdentifierSplitsAndJoinsExactly :=
  ⟨fun c => ⟨idHigh_toNat c, idLow_toNat c, joinId_idHigh_idLow c⟩,
    fun h l => ⟨joinId_toNat h l, idHigh_joinId h l, idLow_joinId h l⟩⟩

/-! ## DECODE of the three frame forms -/

/-- A whole data frame, whatever follows it (R119). -/
theorem decodeFrame_data {L : Byte} {payload : Bytes} (hi lo : Byte) (rest : Bytes)
    (hp : payload.length = L.toNat) (hL : L.toNat ≤ Config.maxDlen) :
    decodeFrame (Config.tagData :: L :: hi :: lo :: (payload ++ rest)) =
      .complete (dataMessage (joinId hi lo) L payload) (Config.hdrData + L.toNat) := by
  have hmore : ¬ (payload ++ rest).length < L.toNat := by rw [List.length_append]; omega
  have htake : (payload ++ rest).take L.toNat = payload := by rw [← hp, List.take_left]
  rw [decodeFrame_cons, if_pos rfl]
  simp only [if_neg hmore, htake]
  exact if_neg (Nat.not_lt.mpr hL)

/-- A remote frame, whatever follows it (R123). -/
theorem decodeFrame_remote (hi lo : Byte) (rest : Bytes) :
    decodeFrame (Config.tagRemote :: hi :: lo :: rest) = .complete (remoteMessage (joinId hi lo)) Config.lenRemote := by
  rw [decodeFrame_cons, if_neg (by decide), if_pos rfl]
  rfl

/-- Any other first byte, once three bytes are there (R116, R124). -/
theorem decodeFrame_badTag {t : Byte} (hd : t ≠ Config.tagData) (hr : t ≠ Config.tagRemote) (x y : Byte)
    (rest : Bytes) : decodeFrame (t :: x :: y :: rest) = .invalid .badTag := by
  rw [decodeFrame_cons, if_neg hd, if_neg hr]

/-! ## The instruction at the frame cursor, by the verdict -/

theorem decode_of_incomplete {b : Bytes} (h : decodeFrame b = .incomplete) :
    decode (.atCursor b) = .error .incomplete := by
  simp [decode, decodeCursor, h]

theorem decode_of_badLen {b : Bytes} (h : decodeFrame b = .invalid .badLen) :
    decode (.atCursor b) = .error .badLen := by
  simp [decode, decodeCursor, h]

theorem decode_of_badTag {b : Bytes} (h : decodeFrame b = .invalid .badTag) :
    decode (.atCursor b) = .ok (.badTag (byteAt b 0)) := by
  simp [decode, decodeCursor, h]

theorem decode_of_complete {b : Bytes} {m : Message} {k : Nat} (h : decodeFrame b = .complete m k) :
    decode (.atCursor b) =
      .ok (if m.rtr then .remote m.cobId else .data m.cobId m.len ((b.take k).drop Config.hdrData)) := by
  simp only [decode, decodeCursor, h]
  split <;> rfl

theorem decode_data {L : Byte} {payload : Bytes} (hi lo : Byte) (rest : Bytes)
    (hp : payload.length = L.toNat) (hL : L.toNat ≤ Config.maxDlen) :
    decode (.atCursor (Config.tagData :: L :: hi :: lo :: (payload ++ rest))) =
      .ok (.data (joinId hi lo) L payload) := by
  rw [decode_of_complete (decodeFrame_data hi lo rest hp hL), ← hp]
  simp [dataMessage, Config.hdrData, Nat.add_comm 4]

theorem decode_remote (hi lo : Byte) (rest : Bytes) :
    decode (.atCursor (Config.tagRemote :: hi :: lo :: rest)) = .ok (.remote (joinId hi lo)) :=
  decode_of_complete (decodeFrame_remote hi lo rest)

/-! ## Selector values -/

/-- Only the reserved command needs the hypothesis: a value that names another command is not reserved (R92). -/
theorem selectCommand_code {c : Command} (h : c.instr.wf = true) : selectCommand c.code = c := by
  cases c with
  | openSession | closeSession | send | recv | chbaud => rfl
  | reserved code =>
    have reserved : ∀ code : BitVec 3, (Instr.cmdReserved code).wf = true →
        selectCommand code = .reserved code := by decide
    exact reserved code h

theorem decode_selector_code {c : Command} (h : c.instr.wf = true) : decode (.selector c.code) = .ok c.instr := by
  rw [decode, selectCommand_code h]

/-! ## Code words -/

/-- Settles O14, one case per row of the table: a frame by the lemma on its form, a command by its selector value,
and the calls have neither a code word nor a bit pattern. -/
theorem decodeGivesBackTheEncodedInstruction : Obligations.DecodeGivesBackTheEncodedInstruction := by
  intro i rest hwf
  cases i with
  | data c L payload =>
    intro _
    simp only [Instr.wf, Bool.and_eq_true, decide_eq_true_eq, beq_iff_eq] at hwf
    have h := decode_data (idHigh c) (idLow c) rest hwf.2 hwf.1
    rwa [joinId_idHigh_idLow] at h
  | remote c =>
    intro _
    have h := decode_remote (idHigh c) (idLow c) rest
    rwa [joinId_idHigh_idLow] at h
  | badTag t =>
    intro hrest
    simp only [Instr.wf, Bool.and_eq_true, bne_iff_ne] at hwf
    match rest, hrest t rfl with
    | x :: y :: more, _ => exact decode_of_badTag (decodeFrame_badTag hwf.1 hwf.2 x y more)
  | openCmd => exact fun _ => decode_selector_code (c := .openSession) hwf
  | closeCmd => exact fun _ => decode_selector_code (c := .closeSession) hwf
  | send => exact fun _ => decode_selector_code (c := .send) hwf
  | recv => exact fun _ => decode_selector_code (c := .recv) hwf
  | chbaud => exact fun _ => decode_selector_code (c := .chbaud) hwf
  | cmdReserved code => exact fun _ => decode_selector_code (c := .reserved code) hwf
  | encode | decode | tOpen | tClose | tPurge | tWrite | tWaitReadable | tAvailable | tRead => rfl

/-- Settles O15: each selector value is the one of its command, and the bytes are read one by one. -/
theorem writtenOutCodeWordsDecode : Obligations.WrittenOutCodeWordsDecode :=
  ⟨⟨decode_selector_code (c := .openSession) rfl, decode_selector_code (c := .closeSession) rfl,
      decode_selector_code (c := .send) rfl, decode_selector_code (c := .recv) rfl,
      decode_selector_code (c := .chbaud) rfl, decode_selector_code (c := .reserved 0) rfl,
      decode_selector_code (c := .reserved 6) rfl, decode_selector_code (c := .reserved 7) rfl⟩,
    rfl, rfl, rfl, rfl, rfl, rfl⟩

/-! ## The step runs what it fetches -/

/-- The host's next request is a command as one transaction (log 10). -/
theorem step_command {s : State} {p : HostPort} {rest : List HostReq} (hi : s.fsm = .idle)
    (hp : s.pending = .command p :: rest) : step s = exec p.command.instr (s.load p rest) := by
  simp [step, nextActivity, hp, hi]

/-- The instruction of a complete frame delivers the frame's message (R119, R123). -/
theorem exec_of_complete {b : Bytes} {m : Message} {k : Nat} {i : Instr} (hv : decodeFrame b = .complete m k)
    (hd : decode (.atCursor b) = .ok i) (s : State) : exec i s = .next (deliver m k s).state := by
  obtain ⟨hi, lo, rest, rfl, rfl, rfl⟩ | ⟨L, hi, lo, payload, rest, hp, hL, rfl, rfl, rfl⟩ := decodeFrame_complete hv
  · rw [decode_remote] at hd
    cases hd
    rfl
  · rw [decode_data hi lo rest hp hL] at hd
    cases hd
    exact if_neg (Nat.not_lt.mpr hL)

/-- RECV with a frame at the cursor of an open session is the frame's instruction (R163, log 18). -/
theorem exec_recv_of_frame {s : State} {i : Instr} (hidle : s.fsm = .idle) (hopen : s.sess = .opened)
    (hd : decode (.atCursor s.rbuf) = .ok i) (hframe : ∀ t, i ≠ .badTag t) : exec .recv s = exec i s := by
  cases hv : decodeFrame s.rbuf with
  | incomplete => rw [decode_of_incomplete hv] at hd; cases hd
  | invalid r =>
    cases r with
    | badLen => rw [decode_of_badLen hv] at hd; cases hd
    | badTag => rw [decode_of_badTag hv] at hd; cases hd; exact absurd rfl (hframe _)
  | complete m k =>
    have hrecv : commandRecv s = deliver m k s := by simp [commandRecv, hopen, hv]
    calc exec .recv s = .next (commandRecv s).state := whenIdle_idle commandRecv hidle
      _ = .next (deliver m k s).state := by rw [hrecv]
      _ = exec i s := (exec_of_complete hv hd s).symm

/-- Settles O46: the step is `exec` of the request's command, and RECV is `exec` of the frame's instruction. -/
theorem stepRunsTheFetchedInstruction : Obligations.StepRunsTheFetchedInstruction := by
  intro s p rest i hidle hp
  rw [step_command hidle hp]
  constructor
  · intro hd
    cases hd
    rfl
  · intro hcmd hopen hd _ hframe
    have hrecv : p.command = .recv := by rw [HostPort.command, hcmd]; rfl
    rw [hrecv]
    exact exec_recv_of_frame (s := s.load p rest) hidle hopen hd hframe

end Sys2Proof.Machine

/-! Proofs of the family 40_framecodec.md: what ENCODE and DECODE hand back, and how they fit together. First DECODE by
the form of the buffer, then the round trip and what follows from it, then the steps that use the codec. -/

namespace Sys2Proof.Machine

/-! ## DECODE by the form of the buffer -/

theorem decodeFrame_short {b : Bytes} (h : b.length < 3) : decodeFrame b = .incomplete := if_pos h

/-- A data frame of which the header or a payload byte is missing (R116, R117). -/
theorem decodeFrame_unfinished {L : Byte} {rest : Bytes} (h : rest.length < 2 + L.toNat) :
    decodeFrame (Config.tagData :: L :: rest) = .incomplete := by
  match rest with
  | [] => rfl
  | [_] => rfl
  | x :: y :: more =>
    have hmore : more.length < L.toNat := by simp only [List.length_cons] at h; omega
    rw [decodeFrame_cons, if_pos rfl]
    exact if_pos hmore

/-- A data frame that declares more than eight bytes, once all of them are there (R118). -/
theorem decodeFrame_badLen {L : Byte} (x y : Byte) {rest : Bytes} (h : 8 < L.toNat) (hl : L.toNat ≤ rest.length) :
    decodeFrame (Config.tagData :: L :: x :: y :: rest) = .invalid .badLen := by
  rw [decodeFrame_cons, if_pos rfl]
  simp only [if_neg (Nat.not_lt.mpr hl), if_pos h]

/-- A data frame with its payload at the front of the bytes behind the header (R119). -/
theorem decodeFrame_data_take {L : Byte} (hi lo : Byte) {rest : Bytes} (hl : L.toNat ≤ rest.length)
    (hL : L.toNat ≤ 8) : decodeFrame (Config.tagData :: L :: hi :: lo :: rest) =
      .complete (dataMessage (joinId hi lo) L (rest.take L.toNat)) (4 + L.toNat) := by
  have h := decodeFrame_data hi lo (rest.drop L.toNat) (List.length_take_of_le hl) hL
  rwa [List.take_append_drop] at h

/-- The two forms of a buffer with an Invalid verdict (R118, R124). -/
theorem decodeFrame_invalid_cases {b : Bytes} {r : Reason} (h : decodeFrame b = .invalid r) :
    (∃ L x y rest, b = Config.tagData :: L :: x :: y :: rest ∧ 8 < L.toNat ∧ L.toNat ≤ rest.length ∧ r = .badLen) ∨
    (∃ t x y rest, b = t :: x :: y :: rest ∧ t ≠ Config.tagData ∧ t ≠ Config.tagRemote ∧ r = .badTag) := by
  obtain ⟨t, x, y, rest, rfl⟩ := decodeFrame_invalid h
  rw [decodeFrame_cons] at h
  by_cases hd : t = Config.tagData
  · rw [if_pos hd] at h
    cases rest with
    | nil => cases h
    | cons z more =>
      simp only at h
      split_ifs at h with hu h8
      cases h
      exact .inl ⟨x, y, z, more, by rw [hd], h8, Nat.not_lt.mp hu, rfl⟩
  · rw [if_neg hd] at h
    split_ifs at h with hr
    cases h
    exact .inr ⟨t, x, y, rest, rfl, hd, hr, rfl⟩

/-- The size of a frame, which is all in the buffer (R129). -/
theorem decodeFrame_complete_consumed {b : Bytes} {m : Message} {k : Nat} (h : decodeFrame b = .complete m k) :
    3 ≤ k ∧ k ≤ 12 ∧ k ≤ b.length := by
  obtain ⟨hi, lo, rest, rfl, -, rfl⟩ | ⟨L, hi, lo, payload, rest, hp, hL, rfl, -, rfl⟩ := decodeFrame_complete h
  · simp
  · simp only [List.length_cons, List.length_append]
    omega

/-! ## The round trip -/

/-- The canonical message with the meaning of `m`: the meaningless fields are zero (R24, R125). -/
def canonicalForm (m : Message) : Message :=
  if m.rtr then remoteMessage m.cobId else dataMessage m.cobId m.len m.payload

theorem canonicalForm_remote {m : Message} (h : m.rtr = true) : canonicalForm m = remoteMessage m.cobId := if_pos h

theorem canonicalForm_data {m : Message} (h : m.rtr = false) :
    canonicalForm m = dataMessage m.cobId m.len m.payload := by
  simp [canonicalForm, h]

/-- An encodable message is remote, or it is a data message of at most eight bytes (R111). -/
theorem encodable_cases {m : Message} (h : m.encodable = true) :
    m.rtr = true ∨ m.rtr = false ∧ m.len.toNat ≤ 8 := by
  cases hr : m.rtr with
  | true => exact .inl rfl
  | false => exact .inr ⟨rfl, ((encodable_iff m).mp h).resolve_left (by simp [hr])⟩

theorem decodeFrame_encodeMessage {m : Message} (h : m.encodable = true) :
    decodeFrame (encodeMessage m) = .complete (canonicalForm m) (encodeMessage m).length := by
  rw [encodeMessage_encodable m h]
  obtain hr | ⟨hr, hl⟩ := encodable_cases h
  · have hd := decodeFrame_remote (idHigh m.cobId) (idLow m.cobId) []
    rw [joinId_idHigh_idLow] at hd
    rw [encodeFrame_remote m hr, canonicalForm_remote hr]
    exact hd
  · have hp := payload_length m hr hl
    have hd := decodeFrame_data (idHigh m.cobId) (idLow m.cobId) [] hp hl
    rw [joinId_idHigh_idLow, List.append_nil, ← hp] at hd
    rw [encodeFrame_data m hr, canonicalForm_data hr, hd]
    simp [Config.hdrData, Nat.add_comm 4]

theorem canonicalForm_canonical {m : Message} (h : m.encodable = true) : (canonicalForm m).canonical = true :=
  decodeFrame_canonical (decodeFrame_encodeMessage h)

theorem canonicalForm_sameMeaning {m : Message} (h : m.encodable = true) :
    (canonicalForm m).sameMeaning m = true := by
  obtain hr | ⟨hr, hl⟩ := encodable_cases h
  · simp [canonicalForm_remote hr, Message.sameMeaning, remoteMessage, hr]
  · have hp := dataMessage_payload m.cobId m.len m.payload (payload_length m hr hl) hl
    rw [canonicalForm_data hr]
    simp only [Message.sameMeaning, hp]
    simp [dataMessage, hr]

theorem canonicalForm_of_canonical {m : Message} (h : m.canonical = true) : canonicalForm m = m := by
  cases hr : m.rtr with
  | true => rw [canonicalForm_remote hr, canonical_remote m hr h]
  | false => rw [canonicalForm_data hr, canonical_data m hr h]

/-- The frame DECODE consumes is the one ENCODE makes of its message (R125). -/
theorem encodeMessage_of_complete {b : Bytes} {m : Message} {k : Nat} (h : decodeFrame b = .complete m k) :
    encodeMessage m = b.take k := by
  rw [encodeMessage_encodable m (encodable_of_canonical (decodeFrame_canonical h)), decodeFrame_complete_take h]

/-- Settles O11: DECODE of a frame gives the canonical form of its message. -/
theorem decodeEncodeRoundTrip : Obligations.DecodeEncodeRoundTrip := by
  constructor
  · intro m hm
    have h := (encodable_iff m).mpr hm
    exact ⟨canonicalForm m, decodeFrame_encodeMessage h, canonicalForm_sameMeaning h, canonicalForm_canonical h,
      canonicalForm_of_canonical⟩
  · intro b m k h
    exact encodeMessage_of_complete h

/-! ## More bytes, and fewer -/

theorem decodeFrame_complete_append {b : Bytes} {m : Message} {k : Nat} (h : decodeFrame b = .complete m k)
    (c : Bytes) : decodeFrame (b ++ c) = .complete m k := by
  obtain ⟨hi, lo, rest, rfl, rfl, rfl⟩ | ⟨L, hi, lo, payload, rest, hp, hL, rfl, rfl, rfl⟩ := decodeFrame_complete h
  · exact decodeFrame_remote hi lo (rest ++ c)
  · simp only [List.cons_append, List.append_assoc]
    exact decodeFrame_data hi lo (rest ++ c) hp hL

theorem decodeFrame_invalid_append {b : Bytes} {r : Reason} (h : decodeFrame b = .invalid r) (c : Bytes) :
    decodeFrame (b ++ c) = .invalid r := by
  obtain ⟨L, x, y, rest, rfl, hL, hl, rfl⟩ | ⟨t, x, y, rest, rfl, hd, hr, rfl⟩ := decodeFrame_invalid_cases h
  · have hle : L.toNat ≤ (rest ++ c).length := by rw [List.length_append]; omega
    exact decodeFrame_badLen x y hL hle
  · exact decodeFrame_badTag hd hr x y (rest ++ c)

/-- Settles O12: the frame is still at the front, and the head is still impossible. -/
theorem decodeIsStableUnderExtension : Obligations.DecodeIsStableUnderExtension :=
  fun _ c => ⟨fun _ _ h => decodeFrame_complete_append h c, fun _ h => decodeFrame_invalid_append h c⟩

/-- Settles O13: any other verdict on the first `j` bytes would be the whole frame's, which consumes more than `j`
bytes. -/
theorem properPrefixOfAFrameIsIncomplete : Obligations.ProperPrefixOfAFrameIsIncomplete := by
  intro m j hm hj
  have hwhole := decodeFrame_encodeMessage ((encodable_iff m).mpr hm)
  rw [← List.take_append_drop j (encodeMessage m)] at hwhole
  cases hv : decodeFrame ((encodeMessage m).take j) with
  | incomplete => rfl
  | invalid r =>
    rw [decodeFrame_invalid_append hv] at hwhole
    cases hwhole
  | complete m' k =>
    rw [decodeFrame_complete_append hv, List.take_append_drop] at hwhole
    injection hwhole with _ hk
    obtain ⟨-, -, hle⟩ := decodeFrame_complete_consumed hv
    rw [List.length_take] at hle
    omega

/-- A Complete verdict depends on the frame alone, because the frame is the encoding of its message (R121). -/
theorem decodeFrame_of_take_eq {b c : Bytes} {m : Message} {k : Nat} (h : decodeFrame b = .complete m k)
    (hbc : b.take k = c.take k) : decodeFrame c = .complete m k := by
  have hcan := decodeFrame_canonical h
  have hm := decodeFrame_encodeMessage (encodable_of_canonical hcan)
  obtain ⟨-, -, hk⟩ := decodeFrame_complete_consumed h
  rw [canonicalForm_of_canonical hcan, encodeMessage_of_complete h, List.length_take_of_le hk, hbc] at hm
  rw [← List.take_append_drop k c]
  exact decodeFrame_complete_append hm (c.drop k)

/-- Settles O10, by the verdict on the first buffer: each is read off the bytes on which the two agree. -/
theorem decodeLooksOnlyAtTheFrame : Obligations.DecodeLooksOnlyAtTheFrame := by
  intro b c hlen htag hL hframe
  obtain hc | ⟨t, x, y, rest, rfl⟩ := bytes_short_or_cons c
  · rw [decodeFrame_short hc, decodeFrame_short (hlen ▸ hc)]
  have hb : 3 ≤ b.length := by simp [hlen]
  cases hv : decodeFrame b with
  | incomplete =>
    obtain h | ⟨L, more, rfl, hmore⟩ := decodeFrame_incomplete hv
    · omega
    · obtain rfl : Config.tagData = t := htag hb
      obtain rfl : L = x := hL hb rfl
      have hlen' : more.length = (y :: rest).length := Nat.succ.inj (Nat.succ.inj hlen)
      exact (decodeFrame_unfinished (hlen' ▸ hmore)).symm
  | invalid r =>
    obtain ⟨L, _, _, more, rfl, h8, hl, rfl⟩ | ⟨t', _, _, _, rfl, hd, hr, rfl⟩ := decodeFrame_invalid_cases hv
    · obtain rfl : Config.tagData = t := htag hb
      obtain rfl : L = x := hL hb rfl
      match rest with
      | [] => simp at hlen
      | z :: more' =>
        have hlen' : more.length = more'.length := by simpa using hlen
        exact (decodeFrame_badLen y z h8 (hlen' ▸ hl)).symm
    · obtain rfl : t' = t := htag hb
      exact (decodeFrame_badTag hd hr x y rest).symm
  | complete m k => exact (decodeFrame_of_take_eq hv (hframe m k hv)).symm

/-! ## The rows of the verdict table -/

/-- Settles O5: in each form a byte of the header or of the payload is missing. -/
theorem decodeUnfinishedFrameIsIncomplete : Obligations.DecodeUnfinishedFrameIsIncomplete := by
  refine ⟨fun b h => decodeFrame_short h, fun x y => decodeFrame_unfinished ?_, fun L x y rest h =>
    decodeFrame_unfinished ?_⟩
  · rw [List.length_singleton]
    omega
  · simp only [List.length_cons]
    omega

/-- Settles O6: both tests of a long data frame, and the tag test. -/
theorem decodeInvalidHeads : Obligations.DecodeInvalidHeads := by
  obtain ⟨-, -, unfinished⟩ := decodeUnfinishedFrameIsIncomplete
  exact ⟨fun L x y rest h8 => ⟨decodeFrame_badLen x y h8, unfinished L x y rest⟩,
    fun t x y rest hd hr => decodeFrame_badTag hd hr x y rest⟩

/-- The payload of a whole data frame, as the message holds it (R119, R120). -/
theorem dataMessage_data_getD (c : Half) {L : Byte} {payload : Bytes} (hp : payload.length = L.toNat) {i : Nat}
    (hi : i < 8) : (dataMessage c L payload).data.toList.getD i 0 = payload.getD i 0 := by
  have ht : payload.take L.toNat = payload := List.take_of_length_le (by omega)
  rw [dataMessage, ht, pad8_getD _ i hi]

/-- Settles O7: behind the payload the message holds the default of the padding, zero. -/
theorem decodeCompleteDataFrame : Obligations.DecodeCompleteDataFrame := by
  intro L hi lo payload rest hp hL
  refine ⟨_, decodeFrame_data hi lo rest hp hL, joinId_toNat hi lo, rfl, rfl, fun i h8 => ?_⟩
  rw [dataMessage_data_getD _ hp h8]
  split_ifs with hlt
  · rfl
  · exact List.getD_eq_default _ _ (by omega)

theorem remoteMessage_eq (c : Half) : remoteMessage c = ⟨c, true, 0, #v[0, 0, 0, 0, 0, 0, 0, 0]⟩ := rfl

/-- Settles O8: the joined identifier as a number. -/
theorem decodeRemoteFrame : Obligations.DecodeRemoteFrame := by
  intro hi lo rest
  rw [← joinId_toNat, BitVec.ofNat_toNat, BitVec.setWidth_eq, ← remoteMessage_eq]
  exact decodeFrame_remote hi lo rest

/-- Settles O9, row by row: the tag and the length byte are in sight, and each row is the lemma on its form. -/
theorem decodeVerdictTable : Obligations.DecodeVerdictTable := by
  intro b
  refine ⟨fun h => decodeFrame_short (by omega), ?remote, ?three, ?unfinished, ?data, ?badLen, ?badTag, ?incomplete,
    fun m k h => decodeFrame_complete_consumed h⟩
  case remote =>
    intro h htag
    match b, h with
    | t :: x :: y :: rest, _ =>
      obtain rfl : t = Config.tagRemote := htag
      exact ⟨_, rfl, decodeFrame_remote x y rest⟩
  case three =>
    intro h htag
    match b, h with
    | [t, L, x], _ =>
      obtain rfl : t = Config.tagData := htag
      exact decodeFrame_unfinished (by rw [List.length_singleton]; omega)
  case unfinished =>
    intro h htag hL
    match b, h with
    | t :: L :: rest, h =>
      obtain rfl : t = Config.tagData := htag
      exact decodeFrame_unfinished (by simp at h hL; omega)
  case data =>
    intro h htag hL h8
    match b, h with
    | t :: L :: x :: y :: rest, _ =>
      obtain rfl : t = Config.tagData := htag
      exact ⟨_, rfl, decodeFrame_data_take x y hL h8⟩
  case badLen =>
    intro h htag h9 hL
    match b, h with
    | t :: L :: x :: y :: rest, _ =>
      obtain rfl : t = Config.tagData := htag
      exact decodeFrame_badLen x y h9 hL
  case badTag =>
    intro h hr hd
    match b, h with
    | t :: x :: y :: rest, _ => exact decodeFrame_badTag hd hr x y rest
  case incomplete =>
    intro h
    obtain hb | ⟨L, rest, rfl, hrest⟩ := decodeFrame_incomplete h
    · omega
    · have hL := L.isLt
      simp only [List.length_cons]
      omega

/-! ## ENCODE and DECODE as steps -/

theorem exec_encode (s : State) :
    exec .encode s = .next { s with result := .frame (encodeMessage s.txmsg) } := rfl

theorem idHigh_eq_ofNat (c : Half) : idHigh c = BitVec.ofNat 8 (c.toNat / 256) := by
  rw [← idHigh_toNat, BitVec.ofNat_toNat, BitVec.setWidth_eq]

theorem idLow_eq_ofNat (c : Half) : idLow c = BitVec.ofNat 8 (c.toNat % 256) := by
  rw [← idLow_toNat, BitVec.ofNat_toNat, BitVec.setWidth_eq]

/-- The meaningful payload byte by byte (R24). -/
theorem payload_eq_map_range {m : Message} (hr : m.rtr = false) (hl : m.len.toNat ≤ 8) :
    m.payload = (List.range m.len.toNat).map fun i => m.data.toList.getD i 0 := by
  apply List.ext_getElem
  · rw [payload_length m hr hl, List.length_map, List.length_range]
  · intro i h _
    have hi : i < m.data.toList.length := by rw [payload_length m hr hl] at h; rw [data_length]; omega
    simp only [Message.payload, hr, Bool.false_eq_true, if_false, List.getElem_take, List.getElem_map,
      List.getElem_range, List.getD_eq_getElem _ _ hi]

/-- Settles O1: the form of the frame (R112, R113), its identifier and its payload written out. -/
theorem encodeHandsBackTheFrame : Obligations.EncodeHandsBackTheFrame := by
  intro s
  constructor
  · intro hr
    rw [exec_encode, encodeMessage_encodable _ ((encodable_iff _).mpr (.inl hr)), encodeFrame_remote _ hr,
      idHigh_eq_ofNat, idLow_eq_ofNat]
    rfl
  · intro hr hl
    rw [exec_encode, encodeMessage_encodable _ ((encodable_iff _).mpr (.inr hl)), encodeFrame_data _ hr,
      idHigh_eq_ofNat, idLow_eq_ofNat, payload_eq_map_range hr hl]
    rfl

/-- Settles O2: ENCODE hands back what `encodeMessage` gives, a free value there. -/
theorem encodeCompletesOutsideItsPrecondition : Obligations.EncodeCompletesOutsideItsPrecondition :=
  fun s _ _ => ⟨encodeMessage s.txmsg, exec_encode s⟩

/-- Settles O4: the meaning of DECODE is this state (log 9). -/
theorem decodeHandsBackTheVerdict : Obligations.DecodeHandsBackTheVerdict := fun _ => rfl

/-! ## The frames at the cursor -/

/-- What delivery changes, and that the rest stays (R163). -/
theorem deliver_state_eq (m : Message) (k : Nat) (s : State) :
    (deliver m k s).state = { s.toIdle with
      rbuf := s.rbuf.drop k
      rxmsg := m
      status := 0
      hist := ⟨s.hist.rxAll, s.hist.groups ++ [.frame (s.rbuf.take k) m]⟩ } := rfl

theorem exec_data (c : Half) {L : Byte} (hL : L.toNat ≤ 8) (payload : Bytes) (s : State) :
    exec (.data c L payload) s = .next (deliver (dataMessage c L payload) (4 + L.toNat) s).state :=
  if_neg (Nat.not_lt.mpr hL)

theorem exec_remote (c : Half) (s : State) :
    exec (.remote c) s = .next (deliver (remoteMessage c) 3 s).state := rfl

/-- Settles O16: a well-formed DATA is the delivery of its message. -/
theorem dataFrameIsDelivered : Obligations.DataFrameIsDelivered := by
  intro c L payload s hwf
  simp only [Instr.wf, Bool.and_eq_true, decide_eq_true_eq, beq_iff_eq] at hwf
  obtain ⟨hL, hp⟩ := hwf
  refine ⟨dataMessage c L payload, rfl, rfl, rfl, fun i h8 => dataMessage_data_getD c hp h8, ?_⟩
  rw [exec_data c hL, deliver_state_eq]

/-- Settles O17: REMOTE is the delivery of its message. -/
theorem remoteFrameIsDelivered : Obligations.RemoteFrameIsDelivered := by
  intro c s
  rw [exec_remote, deliver_state_eq, remoteMessage_eq]

end Sys2Proof.Machine

/-! Proofs of the family 41_linksession_send.md: what SEND writes and leaves alone, how long a command waits, and the
state machine that implements the commands. First the one write of SEND, then the clock, then the runs of the state
machine, which are put together phase by phase. -/

namespace Sys2Proof.Machine

/-! ## SEND -/

theorem encodable_eq_false_iff (m : Message) : m.encodable = false ↔ m.rtr = false ∧ 8 < m.len.toNat := by
  rw [← Bool.not_eq_true, encodable_iff, not_or, Bool.not_eq_true, Nat.not_le]

/-- SEND refuses without a session, and a message outside the invariant: only `STATUS` is written (R141, R142). -/
theorem commandSend_refused {s : State} (h : s.sess = .closed ∨ s.sendOperandOk = false) :
    ∃ c, commandSend s = raise c s := by
  obtain ⟨-, e⟩ | ⟨-, -, e⟩ | ⟨ho, hok, -⟩ := commandSend_cases s
  · exact ⟨_, e⟩
  · exact ⟨_, e⟩
  · rw [ho, hok] at h
    exact absurd h (by decide)

/-- Settles O23: SEND refuses by `raise`, which writes `STATUS` alone. -/
theorem sendRefusesWithoutWriting : Obligations.SendRefusesWithoutWriting := by
  intro s hidle h
  obtain ⟨c, e⟩ := commandSend_refused (s := s) (h.imp_right (encodable_eq_false_iff s.txmsg).mpr)
  calc exec .send s
      = .next (commandSend s).state := whenIdle_idle commandSend hidle
    _ = .next { s.toIdle with status := 1 } := by rw [e]; rfl

theorem commandSend_writes {s : State} (ho : s.sess = .opened) (hm : s.txmsg.encodable = true) :
    commandSend s = afterWrite (encodeMessage s.txmsg).length
      (callWrite (encodeMessage s.txmsg) Config.wrTimeoutMs s).1
      (callWrite (encodeMessage s.txmsg) Config.wrTimeoutMs s).2 := by
  obtain ⟨hc, -⟩ | ⟨-, hbad, -⟩ | ⟨-, -, e⟩ := commandSend_cases s
  · rw [ho] at hc; cases hc
  · exact absurd hm (Bool.eq_false_iff.mp hbad)
  · exact e

/-- `STATUS` tracks the comparison (R145). -/
theorem afterWrite_state (n k : Nat) (s : State) :
    (afterWrite n k s).state = { s.toIdle with status := if k = n then 0 else 1 } := by
  unfold afterWrite
  split <;> rfl

/-- `T.write` after `ms` ticks: what the line does meanwhile, and the accepted bytes on top (R195). -/
theorem write_pass (b : Bytes) (x : Bool) (d : Draw) (ms : Nat) (e : Env) :
    (e.pass ms).write b x d =
      ((e.advance d).acceptedCount b.length x d,
        { e.advance d with
          wireTx := e.wireTx ++ b.take ((e.advance d).acceptedCount b.length x d)
          txHeld := (e.advance d).txHeld ++ b.take ((e.advance d).acceptedCount b.length x d)
          commErr := false
          clock := e.clock + ms }) := by
  simp only [Env.write, advance_pass]
  simp [Env.pass, Env.acceptedCount]

theorem acceptedCount_of_clean {x : Bool} {e : Env} (n : Nat) (d : Draw) (hx : x = false) (he : e.commErr = false) :
    e.acceptedCount n x d = min d.moves n := by
  simp [Env.acceptedCount, hx, he]

theorem acceptedCount_of_cut {x : Bool} {e : Env} (n : Nat) (d : Draw) (h : x = true ∨ e.commErr = true) :
    e.acceptedCount n x d = min d.moves (n - 1) := by
  rw [Env.acceptedCount, if_pos (by simpa using h)]

theorem encodeMessage_length_pos {m : Message} (h : m.encodable = true) : 0 < (encodeMessage m).length := by
  rw [encodeMessage_encodable m h, encodeFrame]
  split <;> simp

/-- Settles O25: the count SEND's write accepts is `Env.acceptedCount` of the whole frame. -/
theorem sendWritesOneFrame : Obligations.SendWritesOneFrame := by
  intro s hidle ho hm d f line
  have henc : s.txmsg.encodable = true := (encodable_iff s.txmsg).mpr hm
  refine ⟨line.acceptedCount f.length (decide (1000 ≤ d.ticks)) d, acceptedCount_le _ _ _ _, ?_, ?_, ?_⟩
  · intro herr hticks
    exact acceptedCount_of_clean _ d (decide_eq_false (Nat.not_le.mpr hticks)) herr
  · intro h
    have cut : decide (1000 ≤ d.ticks) = true ∨ line.commErr = true := h.symm.imp_left decide_eq_true
    exact ⟨acceptedCount_of_cut _ d cut, acceptedCount_lt (encodeMessage_length_pos henc) cut⟩
  · calc exec .send s
        = .next (commandSend s).state := whenIdle_idle commandSend hidle
      _ = _ := by
        rw [commandSend_writes ho henc, afterWrite_state, callWrite_eq, write_pass]
        rfl

/-- Settles O24, from what SEND's one write takes and leaves. -/
theorem sendReportsWhetherAllWasTaken : Obligations.SendReportsWhetherAllWasTaken := by
  intro s hidle ho hm
  obtain ⟨k, hk, -, -, e⟩ := sendWritesOneFrame s hidle ho hm
  exact ⟨_, k, e, hk, rfl, rfl, advance_dev _ _⟩

/-- Whatever SEND does, it ends having moved only the environment and the draws, at most 1000 ms later (R147, R149). -/
theorem commandSend_moved (s : State) :
    ∃ c e ds n, commandSend s = finish c (moved s e ds n) ∧
      s.env.clock ≤ e.clock ∧ e.clock ≤ s.env.clock + 1000 := by
  by_cases h : s.sess = .closed ∨ s.sendOperandOk = false
  · obtain ⟨c, e⟩ := commandSend_refused h
    exact ⟨some c, s.env, s.draws, s.drawCount, e, Nat.le_refl _, Nat.le_add_right _ _⟩
  · rw [not_or, Bool.not_eq_false] at h
    obtain ⟨c, hc⟩ := afterWrite_eq_finish (encodeMessage s.txmsg).length
      (callWrite (encodeMessage s.txmsg) Config.wrTimeoutMs s).1
      (callWrite (encodeMessage s.txmsg) Config.wrTimeoutMs s).2
    refine ⟨c, _, _, _, by rw [commandSend_writes (Session.eq_opened h.1) h.2, hc, callWrite_moved], ?_⟩
    rw [callWrite_eq]
    simp [Config.wrTimeoutMs]

/-- `T.write` does not look at the receive side of the block. -/
theorem callWrite_withReceive (b : Bytes) (ms : Nat) (s : State) (rbuf : Bytes) (rxmsg : Message) :
    callWrite b ms { s with rbuf := rbuf, rxmsg := rxmsg } =
      ((callWrite b ms s).1, { (callWrite b ms s).2 with rbuf := rbuf, rxmsg := rxmsg }) := by
  unfold callWrite State.nextDraw
  cases s.draws <;> rfl

theorem commandSend_withReceive (s : State) (rbuf : Bytes) (rxmsg : Message) :
    (commandSend { s with rbuf := rbuf, rxmsg := rxmsg }).state =
      { (commandSend s).state with rbuf := rbuf, rxmsg := rxmsg } := by
  by_cases h : s.sess = .closed ∨ s.sendOperandOk = false
  · obtain ⟨c, e⟩ := commandSend_refused h
    obtain ⟨c', e'⟩ := commandSend_refused (s := { s with rbuf := rbuf, rxmsg := rxmsg }) h
    rw [e, e']
    rfl
  · rw [not_or, Bool.not_eq_false] at h
    obtain ⟨ho, hok⟩ := h
    have ho := Session.eq_opened ho
    rw [commandSend_writes ho hok, commandSend_writes (s := { s with rbuf := rbuf, rxmsg := rxmsg }) ho hok,
      afterWrite_state, afterWrite_state]
    show ({ (callWrite (encodeMessage s.txmsg) _ { s with rbuf := rbuf, rxmsg := rxmsg }).2.toIdle with
      status := _ } : State) = _
    simp only [callWrite_withReceive]
    rfl

/-- Settles O26: the frame of SEND, and SEND commutes with an exchange of the receive side. -/
theorem sendIgnoresTheReceiveSide : Obligations.SendIgnoresTheReceiveSide := by
  intro s t rbuf rxmsg h
  obtain ⟨hidle, rfl⟩ := exec_instr_next (c := .send) h
  obtain ⟨c, e, ds, n, hsend, -, -⟩ := commandSend_moved s
  have ht : (runCommand .send s).state = (finish c (moved s e ds n)).state := congrArg Finished.state hsend
  refine ⟨by rw [ht]; rfl, by rw [ht]; rfl, by rw [ht]; rfl, by rw [ht]; rfl, ?_⟩
  calc exec .send { s with rbuf := rbuf, rxmsg := rxmsg }
      = .next (commandSend { s with rbuf := rbuf, rxmsg := rxmsg }).state := whenIdle_idle commandSend hidle
    _ = .next { (commandSend s).state with rbuf := rbuf, rxmsg := rxmsg } := by rw [commandSend_withReceive]

/-! ## How long a command waits -/

theorem decodeAgain_cause_ne_timeout (s : State) : (decodeAgain s).cause ≠ some .noDataTimeout := by
  obtain ⟨m, k, -, h⟩ | ⟨r, -, h⟩ | ⟨-, h⟩ := decodeAgain_cases s <;> rw [h] <;> simp

/-- The bounds of R184 for RECV from step 2 on: one wait and one read, and the wait alone on a timeout. -/
theorem recvWait_clock (s : State) :
    s.env.clock ≤ (recvWait s).state.env.clock ∧ (recvWait s).state.env.clock ≤ s.env.clock + 1000 ∧
      ((recvWait s).cause = some .noDataTimeout → (recvWait s).state.env.clock ≤ s.env.clock + 500) := by
  obtain ⟨e, ds, n, ⟨⟨-, -, later, within⟩, h⟩ | ⟨⟨-, -, later, within⟩, h | h | ⟨c, -, -, h⟩⟩⟩ := recvWait_cases s <;>
    rw [h]
  · exact ⟨later, Nat.le_trans within (by omega), fun _ => within⟩
  · exact ⟨later, within, fun hc => by cases hc⟩
  · exact ⟨later, within, fun hc => by cases hc⟩
  · rw [decodeAgain_env]
    exact ⟨later, within, fun hc => absurd hc (decodeAgain_cause_ne_timeout _)⟩

theorem commandRecv_clock (s : State) :
    s.env.clock ≤ (commandRecv s).state.env.clock ∧ (commandRecv s).state.env.clock ≤ s.env.clock + 1000 ∧
      ((commandRecv s).cause = some .noDataTimeout → (commandRecv s).state.env.clock ≤ s.env.clock + 500) := by
  obtain ⟨-, h⟩ | ⟨-, m, k, -, h⟩ | ⟨-, r, -, h⟩ | ⟨-, -, h⟩ := commandRecv_cases s <;> rw [h]
  · exact ⟨Nat.le_refl _, Nat.le_add_right _ _, fun _ => Nat.le_add_right _ _⟩
  · exact ⟨Nat.le_refl _, Nat.le_add_right _ _, fun _ => Nat.le_add_right _ _⟩
  · exact recvWait_clock (dropOne s)
  · exact recvWait_clock s

/-- RECV with a frame already buffered delivers it (R163). -/
theorem commandRecv_buffered {s : State} {m : Message} {k : Nat} (ho : s.sess = .opened)
    (hd : decodeFrame s.rbuf = .complete m k) : commandRecv s = deliver m k s := by
  simp only [commandRecv, ho, hd]

/-- Settles O59, from the clock of SEND and of RECV; a buffered frame and CHBAUD leave the environment alone. -/
theorem waitingIsBounded : Obligations.WaitingIsBounded := by
  intro s t
  refine ⟨fun h => ?_, fun h => ?_, fun h => ?_⟩
  · obtain ⟨-, rfl⟩ := exec_instr_next (c := .send) h
    obtain ⟨c, e, ds, n, hsend, later, within⟩ := commandSend_moved s
    have ht : (runCommand .send s).state.env = e := congrArg (·.state.env) hsend
    rw [ht]
    exact ⟨later, within⟩
  · obtain ⟨-, rfl⟩ := exec_instr_next (c := .recv) h
    obtain ⟨later, within, timeout⟩ := commandRecv_clock s
    refine ⟨later, within, timeout, fun m k ho hd => ?_⟩
    exact congrArg (·.state.env.clock) (commandRecv_buffered ho hd)
  · obtain ⟨-, rfl⟩ := exec_instr_next (c := .chbaud) h
    rfl

/-! ## Runs of the state machine -/

/-- Settles O47, one clause per activity of `step`. -/
theorem stepAdvancesTheStateMachine : Obligations.StepAdvancesTheStateMachine := by
  refine ⟨fun s p rest hidle hp => step_start hidle hp, fun s hbusy hreset hconc => ?_, fun s hidle hp => ?_⟩
  · have hproceed : nextActivity s = .proceed := by
      unfold nextActivity
      split
      · exact absurd ‹_› (hreset _)
      · exact absurd ‹_› (hconc _ _)
      · exact if_neg hbusy
      · exact if_neg hbusy
      · exact if_neg hbusy
    rw [step, hproceed]
  · simp [step, nextActivity, hp, hidle]

theorem ne_idle_of_waits {s : State} (h : s.fsm.waits = true) : s.fsm ≠ .idle := fun hi => by rw [hi] at h; cases h

/-- `n` transitions lead from `s` to `t`, and the state machine is not idle before. -/
structure RunsTo (n : Nat) (s t : State) : Prop where
  ends : transitions n s = t
  busy : ∀ k < n, (transitions k s).fsm ≠ .idle

/-- At most `b` transitions lead from `s` to `t`, and the state machine is not idle before. -/
def RunsWithin (b : Nat) (s t : State) : Prop := ∃ n ≤ b, RunsTo n s t

namespace RunsTo

theorem refl (s : State) : RunsTo 0 s s := ⟨rfl, by simp⟩

theorem trans {m n : Nat} {s t u : State} (h : RunsTo m s t) (k : RunsTo n t u) : RunsTo (m + n) s u := by
  refine ⟨by rw [transitions_add, h.ends, k.ends], fun i hi => ?_⟩
  by_cases him : i < m
  · exact h.busy i him
  · have split : transitions i s = transitions (i - m) t := by
      rw [← h.ends, ← transitions_add, Nat.add_sub_cancel' (Nat.le_of_not_lt him)]
    rw [split]
    exact k.busy (i - m) (by omega)

/-- One transition of a state that is not idle. -/
theorem once {s : State} (h : s.fsm ≠ .idle) : RunsTo 1 s (transition s) :=
  ⟨rfl, fun k hk => by rw [Nat.lt_one_iff.mp hk]; exact h⟩

/-- A call under a timer is waited for until it ends (R255). -/
theorem wait {s : State} {d : Draw} {t : Nat} (hw : s.fsm.waits = true) (hc : s.call = some d)
    (ht : s.waitTimer = some t) :
    RunsTo (min d.ticks t + 1) s
      (waitEnd (decide (t ≤ d.ticks)) { d with ticks := d.ticks - min d.ticks t } (ticked (min d.ticks t) d s)) := by
  refine ⟨transitions_wait hw hc ht, fun k hk => ?_⟩
  rw [transitions_wait_fsm k hw hc (by omega) (fun u hu => by rw [ht] at hu; injection hu with hu; omega)]
  exact ne_idle_of_waits hw

/-- A call without a timer is waited for until the transport reports (R227). -/
theorem waitUnbounded {s : State} {d : Draw} (hw : s.fsm.waits = true) (hc : s.call = some d)
    (ht : s.waitTimer = none) :
    RunsTo (d.ticks + 1) s (waitEnd false { d with ticks := 0 } (ticked d.ticks d s)) := by
  refine ⟨transitions_open hw hc ht, fun k hk => ?_⟩
  rw [transitions_wait_fsm k hw hc (by omega) (fun u hu => by rw [ht] at hu; cases hu)]
  exact ne_idle_of_waits hw

end RunsTo

/-- The state in which a call begun at `s` under the bound `ms` ends: its draw taken, its ticks passed. -/
def callOver (ms : Nat) (f : Fsm) (wr rd : Option Nat) (s : State) : State :=
  ticked (min s.nextDraw.1.ticks ms) s.nextDraw.1 (beginCall f wr rd s)

namespace RunsWithin

theorem refl (b : Nat) (s : State) : RunsWithin b s s := ⟨0, Nat.zero_le b, .refl s⟩

theorem trans {a b : Nat} {s t u : State} (h : RunsWithin a s t) (k : RunsWithin b t u) : RunsWithin (a + b) s u := by
  obtain ⟨m, hm, h⟩ := h
  obtain ⟨n, hn, k⟩ := k
  exact ⟨m + n, Nat.add_le_add hm hn, h.trans k⟩

/-- A transition of a state that is not idle, then the rest of the run. -/
theorem step {b : Nat} {s t u : State} (h : s.fsm ≠ .idle) (ht : transition s = t) (k : RunsWithin b t u) :
    RunsWithin (1 + b) s u :=
  trans ⟨1, Nat.le_refl 1, ht ▸ .once h⟩ k

/-- A transition of a state that is not idle, and the run is over. -/
theorem last {b : Nat} {s t : State} (h : s.fsm ≠ .idle) (ht : transition s = t) : RunsWithin (1 + b) s t :=
  step h ht (refl b t)

/-- A call begun in a state with a timer is waited for until it ends (R148, R175, R255). -/
theorem call {b ms : Nat} {f : Fsm} {wr rd : Option Nat} {s u : State} (hw : f.waits = true)
    (ht : (beginCall f wr rd s).waitTimer = some ms)
    (k : RunsWithin b (waitEnd (decide (ms ≤ s.nextDraw.1.ticks))
      { s.nextDraw.1 with ticks := s.nextDraw.1.ticks - min s.nextDraw.1.ticks ms } (callOver ms f wr rd s)) u) :
    RunsWithin (ms + 1 + b) (beginCall f wr rd s) u :=
  trans ⟨_, by omega, .wait (s := beginCall f wr rd s) hw rfl ht⟩ k

end RunsWithin

/-! ## Transactions do not look at the state machine -/

/-- The state a transaction leaves is the same whatever the state machine's state, timers and call were. -/
def IgnoresFsm (f : State → Finished) : Prop := ∀ s, (f s.toIdle).state = (f s).state

theorem IgnoresFsm.congr {f : State → Finished} (hf : IgnoresFsm f) {s t : State} (h : s.toIdle = t.toIdle) :
    (f s).state = (f t).state := by
  rw [← hf s, h, hf t]

theorem noMessage_ignoresFsm (c : Cause) : IgnoresFsm (noMessage c) := fun _ => rfl

theorem afterOpen_ignoresFsm (ok : Bool) : IgnoresFsm (afterOpen ok) := fun _ => by cases ok <;> rfl

theorem afterWrite_ignoresFsm (n k : Nat) : IgnoresFsm (afterWrite n k) := fun s => by
  rw [afterWrite_state, afterWrite_state]
  rfl

theorem decodeAgain_ignoresFsm : IgnoresFsm decodeAgain := fun s => by
  unfold decodeAgain
  rw [toIdle_rbuf]
  cases decodeFrame s.rbuf <;> rfl

theorem nextDraw_toIdle (s : State) : s.toIdle.nextDraw = (s.nextDraw.1, s.nextDraw.2.toIdle) := by
  unfold State.nextDraw
  rw [toIdle_draws]
  cases s.draws <;> rfl

theorem callWrite_toIdle (b : Bytes) (ms : Nat) (s : State) :
    callWrite b ms s.toIdle = ((callWrite b ms s).1, (callWrite b ms s).2.toIdle) := by
  simp only [callWrite, nextDraw_toIdle]
  rfl

theorem callWait_toIdle (ms : Nat) (s : State) :
    callWait ms s.toIdle = ((callWait ms s).1, (callWait ms s).2.toIdle) := by
  simp only [callWait, nextDraw_toIdle]
  rfl

theorem callAvailable_toIdle (s : State) :
    callAvailable s.toIdle = ((callAvailable s).1, (callAvailable s).2.toIdle) := by
  simp only [callAvailable, nextDraw_toIdle]
  rfl

theorem callRead_toIdle (n ms : Nat) (s : State) :
    callRead n ms s.toIdle = ((callRead n ms s).1, (callRead n ms s).2.toIdle) := by
  simp only [callRead, nextDraw_toIdle]
  rfl

theorem recvRead_ignoresFsm : IgnoresFsm recvRead := fun s => by
  have hrequest : s.toIdle.readRequest = s.readRequest := rfl
  simp only [recvRead, hrequest, callRead_toIdle]
  split
  · exact noMessage_ignoresFsm _ _
  · exact decodeAgain_ignoresFsm (rbufAppend _ _)

theorem recvAvail_ignoresFsm : IgnoresFsm recvAvail := fun s => by
  simp only [recvAvail, callAvailable_toIdle]
  split
  · exact noMessage_ignoresFsm _ _
  · exact recvRead_ignoresFsm _

theorem recvWait_ignoresFsm : IgnoresFsm recvWait := fun s => by
  simp only [recvWait, callWait_toIdle]
  split
  · exact recvAvail_ignoresFsm _
  · exact noMessage_ignoresFsm _ _

/-! ## The phases of each command on the state machine -/

theorem recvRead_of_empty {s : State} {n : Nat} (hn : s.readRequest = n)
    (h : (callRead n Config.rdTimeoutMs s).1 = []) :
    recvRead s = noMessage .noDataZeroRead (callRead n Config.rdTimeoutMs s).2 := by
  simp only [recvRead, hn, h, if_true]

theorem recvRead_of_chunk {s : State} {n : Nat} (hn : s.readRequest = n)
    (h : (callRead n Config.rdTimeoutMs s).1 ≠ []) :
    recvRead s = decodeAgain (rbufAppend (callRead n Config.rdTimeoutMs s).1 (callRead n Config.rdTimeoutMs s).2) := by
  simp only [recvRead, hn, h, if_false]

/-- When the read of the state machine ends, RECV goes on as its step 5 does (R169). -/
theorem runs_readEnds (s : State) (x : Bool) (j : Nat) :
    RunsWithin 1
      (readEnds x { s.nextDraw.1 with ticks := j }
        (callOver Config.rdTimeoutMs .rRead none (some Config.rdTimeoutMs) s))
      (recvRead s).state := by
  have hrequest : s.readRequest = s.nextDraw.2.readRequest := by simp [State.readRequest, State.rlen]
  obtain ⟨hempty, e⟩ | ⟨hchunk, e⟩ := readEnds_cases x { s.nextDraw.1 with ticks := j }
    (callOver Config.rdTimeoutMs .rRead none (some Config.rdTimeoutMs) s)
  · rw [e, recvRead_of_empty hrequest hempty]
    exact .refl 1 _
  · rw [e, recvRead_of_chunk hrequest hchunk]
    exact .last (b := 0) Fsm.noConfusion (decodeAgain_ignoresFsm.congr rfl)

/-- RECV from `R_READ` on (R175). -/
theorem runs_rRead (s : State) :
    RunsWithin 502 (beginCall .rRead none (some Config.rdTimeoutMs) s) (recvRead s).state :=
  .call (b := 1) (ms := Config.rdTimeoutMs) rfl rfl
    (runs_readEnds s (decide (Config.rdTimeoutMs ≤ s.nextDraw.1.ticks)) _)

/-- RECV from `R_AVAIL` on (R175). -/
theorem runs_rAvail (s : State) : RunsWithin 503 (enter .rAvail s) (recvAvail s).state := by
  have hrecv : (recvAvail (enter .rAvail s)).state = (recvAvail s).state := recvAvail_ignoresFsm.congr rfl
  rw [← hrecv]
  obtain ⟨hnone, e⟩ | ⟨hsome, e⟩ := fromRAvail_cases (enter .rAvail s)
  · have hend : recvAvail (enter .rAvail s) = noMessage .noDataEmpty (callAvailable (enter .rAvail s)).2 := if_pos hnone
    rw [hend]
    exact .last (b := 502) Fsm.noConfusion e
  · have hread : recvAvail (enter .rAvail s) = recvRead (callAvailable (enter .rAvail s)).2 := if_neg hsome
    rw [hread]
    exact .step (s := enter .rAvail s) Fsm.noConfusion e (runs_rRead _)

/-- When the wait of the state machine ends, RECV goes on from its step 3 or has timed out (R164). -/
theorem runs_waitEnds (s : State) (j : Nat) :
    RunsWithin 503
      (waitEnds (decide (Config.rdTimeoutMs ≤ s.nextDraw.1.ticks)) { s.nextDraw.1 with ticks := j }
        (callOver Config.rdTimeoutMs .rWait none (some Config.rdTimeoutMs) s))
      (recvWait s).state := by
  obtain ⟨hready, e⟩ | ⟨htimeout, e⟩ := waitEnds_cases (decide (Config.rdTimeoutMs ≤ s.nextDraw.1.ticks))
    { s.nextDraw.1 with ticks := j } (callOver Config.rdTimeoutMs .rWait none (some Config.rdTimeoutMs) s)
  · have hrecv : recvWait s = recvAvail (callWait Config.rdTimeoutMs s).2 := if_pos hready
    have hsame := recvAvail_ignoresFsm.congr (s := (callWait Config.rdTimeoutMs s).2)
      (t := { callOver Config.rdTimeoutMs .rWait none (some Config.rdTimeoutMs) s with
        env := (callWait Config.rdTimeoutMs s).2.env }) rfl
    rw [e, hrecv, hsame]
    exact runs_rAvail _
  · have hrecv : recvWait s = noMessage .noDataTimeout (callWait Config.rdTimeoutMs s).2 :=
      if_neg (Bool.eq_false_iff.mp htimeout)
    rw [e, hrecv]
    exact .refl 503 _

/-- RECV from `R_WAIT` on (R175). -/
theorem runs_rWait (s : State) :
    RunsWithin 1004 (beginCall .rWait none (some Config.rdTimeoutMs) s) (recvWait s).state :=
  .call (b := 503) (ms := Config.rdTimeoutMs) rfl rfl (runs_waitEnds s _)

theorem commandRecv_invalid {s : State} {r : Reason} (ho : s.sess = .opened) (hd : decodeFrame s.rbuf = .invalid r) :
    commandRecv s = recvWait (dropOne s) := by
  simp only [commandRecv, ho, hd]

theorem commandRecv_incomplete {s : State} (ho : s.sess = .opened) (hd : decodeFrame s.rbuf = .incomplete) :
    commandRecv s = recvWait s := by
  simp only [commandRecv, ho, hd]

/-- RECV of an open session, from `R_DECODE1` on (R175). -/
theorem runs_rDecode1 {s : State} (ho : s.sess = .opened) :
    RunsWithin 1005 (enter .rDecode1 s) (commandRecv s).state := by
  obtain ⟨m, k, hd, e⟩ | ⟨r, hd, e⟩ | ⟨hd, e⟩ := fromRDecode1_cases (enter .rDecode1 s)
  · rw [commandRecv_buffered ho hd]
    exact .last (s := enter .rDecode1 s) (b := 1004) Fsm.noConfusion e
  · have hsame : (recvWait (dropOne s)).state = (recvWait (dropOne (enter .rDecode1 s))).state :=
      recvWait_ignoresFsm.congr rfl
    rw [commandRecv_invalid ho hd, hsame]
    exact .step (s := enter .rDecode1 s) Fsm.noConfusion e (runs_rWait _)
  · have hsame : (recvWait s).state = (recvWait (enter .rDecode1 s)).state := recvWait_ignoresFsm.congr rfl
    rw [commandRecv_incomplete ho hd, hsame]
    exact .step (s := enter .rDecode1 s) Fsm.noConfusion e (runs_rWait _)

/-- The write of the state machine ends as SEND's does (R144, R145). -/
theorem writeEnds_callOver (s : State) (j : Nat) :
    writeEnds (decide (Config.wrTimeoutMs ≤ s.nextDraw.1.ticks)) { s.nextDraw.1 with ticks := j }
        (callOver Config.wrTimeoutMs .sWrite (some Config.wrTimeoutMs) none s) =
      (afterWrite (encodeMessage s.txmsg).length (callWrite (encodeMessage s.txmsg) Config.wrTimeoutMs s).1
        (callWrite (encodeMessage s.txmsg) Config.wrTimeoutMs s).2).state := by
  have hframe : s.txmsg = s.nextDraw.2.txmsg := congrArg HostPort.txmsg (nextDraw_host s).symm
  rw [hframe]
  exact (afterWrite_ignoresFsm _ _).congr rfl

theorem commandSend_ignoresFsm : IgnoresFsm commandSend := fun s => by
  by_cases h : s.sess = .closed ∨ s.sendOperandOk = false
  · obtain ⟨c, e⟩ := commandSend_refused h
    obtain ⟨c', e'⟩ := commandSend_refused (s := s.toIdle) h
    rw [e, e']
    rfl
  · rw [not_or, Bool.not_eq_false] at h
    rw [commandSend_writes (Session.eq_opened h.1) h.2,
      commandSend_writes (s := s.toIdle) (Session.eq_opened h.1) h.2, callWrite_toIdle]
    exact afterWrite_ignoresFsm _ _ _

/-- SEND, from `S_ENCODE` on (R148). -/
theorem runs_sEncode (s : State) : RunsWithin 1002 (enter .sEncode s) (commandSend s).state := by
  have hsend : (commandSend (enter .sEncode s)).state = (commandSend s).state := commandSend_ignoresFsm.congr rfl
  rw [← hsend]
  obtain ⟨hc, e⟩ | ⟨ho, hok, e⟩ | ⟨ho, hbad, e⟩ := fromSEncode_cases (enter .sEncode s)
  · obtain ⟨c, hrefused⟩ := commandSend_refused (s := enter .sEncode s) (.inl hc)
    rw [hrefused]
    exact .last (s := enter .sEncode s) (b := 1001) Fsm.noConfusion e
  · rw [commandSend_writes ho hok, ← writeEnds_callOver]
    exact .step (s := enter .sEncode s) Fsm.noConfusion e
      (.call (b := 0) (ms := Config.wrTimeoutMs) rfl rfl (.refl 0 _))
  · obtain ⟨c, hrefused⟩ := commandSend_refused (s := enter .sEncode s) (.inr hbad)
    rw [hrefused]
    exact .last (s := enter .sEncode s) (b := 1001) Fsm.noConfusion e

/-- The opening of the device on the state machine ends as OPEN does. -/
theorem openEnds_ticked (s : State) (x : Bool) (j : Nat) :
    openEnds x { s.nextDraw.1 with ticks := j }
        (ticked s.nextDraw.1.ticks s.nextDraw.1 (beginCall .oOpening none none s)) =
      (afterOpen (callOpen s.host.port Config.baudDefault s).1
        (callOpen s.host.port Config.baudDefault s).2).state := by
  have hport : s.host.port = s.nextDraw.2.host.port := congrArg HostPort.port (nextDraw_host s).symm
  rw [hport]
  exact (afterOpen_ignoresFsm _).congr rfl

/-- OPEN from its start on: the device's answer is waited for (R227). -/
theorem runs_open (s : State) : ∃ n, RunsTo n (startCommand .openSession s) (commandOpen s).state := by
  obtain ⟨ho, e⟩ | ⟨hc, hok, e⟩ | ⟨hc, hbad, e⟩ := startOpen_cases s
  · have hopen : commandOpen s = raise .alreadyOpen s := by simp only [commandOpen, ho]
    rw [e, hopen]
    exact ⟨0, .refl _⟩
  · have hopen : commandOpen s = afterOpen (callOpen s.host.port Config.baudDefault s).1
        (callOpen s.host.port Config.baudDefault s).2 := by
      simp only [commandOpen, hc, hok, if_true]
    rw [e, hopen, ← openEnds_ticked s false 0]
    exact ⟨_, .waitUnbounded (s := beginCall .oOpening none none s) rfl rfl rfl⟩
  · have hopen : commandOpen s = raise .config s := by simp only [commandOpen, hc, hbad, Bool.false_eq_true, if_false]
    rw [e, hopen]
    exact ⟨0, .refl _⟩

theorem afterClose_state (s : State) :
    (afterClose s).state = { s.toIdle with sess := .closed, rbuf := [], status := 0 } := by
  simp [afterClose, endSession, rbufTrim, State.rlen, State.toIdle, State.report, Config.statusOk]

theorem nextDraw_endSession (s : State) : (endSession s).nextDraw = (s.nextDraw.1, endSession s.nextDraw.2) := by
  unfold State.nextDraw
  rw [endSession_draws]
  cases s.draws <;> rfl

/-- The release of the device on the state machine ends as CLOSE does; emptying the buffer twice is emptying it once
(log 16). -/
theorem closeEnds_ticked (s : State) (x : Bool) (d : Draw) :
    closeEnds x d (ticked (endSession s).nextDraw.1.ticks (endSession s).nextDraw.1
      (beginCall .cClosing none none (endSession s))) = (afterClose (callClose s)).state := by
  simp only [closeEnds, beginCall, callClose, nextDraw_endSession, afterClose_state]
  rfl

/-- CLOSE from its start on: the device's release is waited for (R227). -/
theorem runs_close (s : State) : ∃ n, RunsTo n (startCommand .closeSession s) (commandClose s).state := by
  obtain ⟨ho, e⟩ | ⟨hc, e⟩ := startClose_cases s
  · have hclose : commandClose s = afterClose (callClose s) := by simp only [commandClose, ho]
    rw [e, hclose, ← closeEnds_ticked s false { (endSession s).nextDraw.1 with ticks := 0 }]
    exact ⟨_, .waitUnbounded (s := beginCall .cClosing none none (endSession s)) rfl rfl rfl⟩
  · have hclose : commandClose s = succeed s := by simp only [commandClose, hc]
    rw [e, hclose]
    exact ⟨0, .refl _⟩

/-- Each command on its state machine ends in the state of the transaction; RECV takes the most transitions of those
with a bound. -/
theorem runs_command (c : Command) (s : State) :
    ∃ n, RunsTo n (startCommand c s) (runCommand c s).state ∧ (c ≠ .openSession → c ≠ .closeSession → n ≤ 1005) := by
  cases c with
  | openSession =>
    obtain ⟨n, h⟩ := runs_open s
    exact ⟨n, h, fun hne => absurd rfl hne⟩
  | closeSession =>
    obtain ⟨n, h⟩ := runs_close s
    exact ⟨n, h, fun _ hne => absurd rfl hne⟩
  | send =>
    obtain ⟨n, hn, h⟩ := runs_sEncode s
    exact ⟨n, h, fun _ _ => by omega⟩
  | recv =>
    obtain ⟨ho, e⟩ | ⟨hc, e⟩ := startRecv_cases s
    · obtain ⟨n, hn, h⟩ := runs_rDecode1 ho
      exact ⟨n, e ▸ h, fun _ _ => hn⟩
    · have hrecv : commandRecv s = noMessage .notOpen s := by simp only [commandRecv, hc]
      exact ⟨0, by rw [e, ← hrecv]; exact .refl _, fun _ _ => Nat.zero_le _⟩
  | chbaud | reserved => exact ⟨0, .refl _, fun _ _ => Nat.zero_le _⟩

/-- Settles O50: `exec` of the command is its transaction, and the state machine runs to the state of that. -/
theorem stateMachineImplementsTheCommands : Obligations.StateMachineImplementsTheCommands := by
  intro c s hidle
  obtain ⟨n, ⟨hends, hbusy⟩, hbound⟩ := runs_command c s
  refine ⟨n, ?_, hbusy, hbound⟩
  rw [exec_instr, whenIdle_idle _ hidle, hends]

end Sys2Proof.Machine

/-! Proofs of the family 42_linksession_receive.md: how RECV ends, what it leaves in the buffer, and how a frame that
comes in two chunks is put together. First the single endings, then the calls on a device without errors, then the
table of causes and the transmit side. -/

namespace Sys2Proof.Machine

/-! ## RECV without a wait -/

theorem exec_recv_idle {s : State} (h : s.fsm = .idle) : exec .recv s = .next (commandRecv s).state :=
  whenIdle_idle commandRecv h

theorem commandRecv_closed {s : State} (hc : s.sess = .closed) : commandRecv s = noMessage .notOpen s := by
  simp only [commandRecv, hc]

/-- Settles O27: without a session RECV is `none(NotOpen)`. -/
theorem recvWithoutASessionFails : Obligations.RecvWithoutASessionFails := by
  intro s hidle hc
  rw [exec_recv_idle hidle, commandRecv_closed hc]
  rfl

/-- Settles O28: with a frame in the buffer RECV is its delivery. -/
theorem recvReturnsABufferedFrameAtOnce : Obligations.RecvReturnsABufferedFrameAtOnce := by
  intro s m k hidle ho hd
  have hrecv : exec .recv s = .next (deliver m k s).state := by
    rw [exec_recv_idle hidle, commandRecv_buffered ho hd]
  rw [deliver_state_eq] at hrecv
  exact ⟨_, hrecv, rfl⟩

/-! ## Resynchronisation -/

theorem dropOne_of_cons {s : State} {b : Byte} {rest : Bytes} (h : s.rbuf = b :: rest) :
    dropOne s = { s with rbuf := rest, hist := ⟨s.hist.rxAll, s.hist.groups ++ [.dropped b]⟩ } := by
  simp only [dropOne, rbufTrim, State.recordGroups, h]
  rfl

/-- Settles O18: both instructions are the drop of the leading byte. -/
theorem invalidHeadCostsOneByte : Obligations.InvalidHeadCostsOneByte := by
  intro s b rest hb t
  have hdrop : dropOne s = t := dropOne_of_cons hb
  rw [← hdrop]
  exact ⟨fun _ => rfl, fun _ _ _ hlen => if_pos hlen⟩

/-- Settles O19, one case per verdict on the buffer. -/
theorem recvRunsTheFrameAtTheCursor : Obligations.RecvRunsTheFrameAtTheCursor := by
  intro s hidle ho
  cases hv : decodeFrame s.rbuf with
  | incomplete =>
    rw [decode_of_incomplete hv]
    show exec .recv s = .next (recvWait s).state
    rw [exec_recv_idle hidle, commandRecv_incomplete ho hv]
  | invalid r =>
    have hrecv : exec .recv s = .next (recvWait (dropOne s)).state := by
      rw [exec_recv_idle hidle, commandRecv_invalid ho hv]
    cases r with
    | badTag =>
      rw [decode_of_badTag hv]
      exact ⟨dropOne s, rfl, hrecv⟩
    | badLen =>
      rw [decode_of_badLen hv]
      exact hrecv
  | complete m k =>
    have hd := decode_of_complete hv
    split at hd <;> rw [hd] <;> exact exec_recv_of_frame hidle ho hd (fun _ => Instr.noConfusion)

/-! ## The size of the read -/

/-- Where there is room the read asks for a byte (R180). -/
theorem one_le_readRequest {s : State} (h : s.hasRoom = true) : 1 ≤ readRequest s.cap s.rbuf.length := by
  cases hcap : s.cap with
  | finite n hn =>
    simp only [State.hasRoom, hcap] at h
    have hlt : s.rbuf.length < n := of_decide_eq_true h
    simp only [readRequest, Config.rxReadMax]
    omega
  | unbounded => exact Nat.succ_pos 2999

theorem readRequest_le (cap : RbufCap) (len : Nat) : readRequest cap len ≤ 3000 := by
  cases cap with
  | finite n _ => exact Nat.min_le_left 3000 (n - len)
  | unbounded => exact Nat.le_refl 3000

/-- Any capacity has room for 259 bytes (R8). -/
theorem le_readRequest (cap : RbufCap) {n len : Nat} (h : len + n ≤ 259) : n ≤ readRequest cap len := by
  cases cap with
  | finite c hc =>
    simp only [readRequest, Config.rxReadMax]
    omega
  | unbounded => exact Nat.le_trans (by omega) (show 259 ≤ 3000 by omega)

/-- Settles O32: an Incomplete buffer has room, and so has an Invalid one without its first byte. -/
theorem readRequestIsPositiveAndFits : Obligations.ReadRequestIsPositiveAndFits := by
  intro cap b hwf
  let s : State := { State.reset with cap := cap, rbuf := b }
  have hcap : CapacityInv s := hwf
  refine ⟨fun hd => ?_, fun r hd => ?_, readRequest_le cap b.length, fun c hc => memory_wf_append cap b c hwf hc⟩
  · exact one_le_readRequest (s := s) (hasRoom_incomplete hd)
  · exact one_le_readRequest (s := dropOne s) (hasRoom_dropOne hcap hd)

/-! ## The calls on a device without errors -/

/-- An open device without a pending error, with `q` received and not yet read. -/
structure CleanEnv (cfg : SerialConfig) (q : Bytes) (e : Env) : Prop where
  dev : e.dev = .opened cfg
  rxq : e.rxq = q
  commErr : e.commErr = false

section
variable {s : State} {d : Draw} {ds : List Draw} {cfg : SerialConfig} {q : Bytes}
  (hd : s.draws = d :: ds) (hs : CleanEnv cfg q s.env) (hc : cleanDraw d = true)
include hd hs hc

theorem callWait_cleanEnv (ms : Nat) :
    ∃ e n, CleanEnv cfg (q ++ d.arrivals) e ∧
      callWait ms s = (d.accept && !decide (ms ≤ d.ticks), moved s e ds n) := by
  obtain ⟨ho, rfl, he⟩ := hs
  refine ⟨_, s.drawCount, ?_, callWait_clean ms hd ho he hc⟩
  exact ⟨rfl, rfl, rfl⟩

theorem callAvailable_cleanEnv :
    ∃ e n, CleanEnv cfg (q ++ d.arrivals) e ∧ callAvailable s = ((q ++ d.arrivals).length, moved s e ds n) := by
  obtain ⟨ho, rfl, he⟩ := hs
  refine ⟨_, s.drawCount, ?_, callAvailable_clean hd ho hc⟩
  exact ⟨rfl, rfl, he⟩

theorem callRead_cleanEnv {size k : Nat} (hk : min d.moves (min size (q ++ d.arrivals).length) = k) (ms : Nat) :
    ∃ e n, CleanEnv cfg ((q ++ d.arrivals).drop k) e ∧
      callRead size ms s = ((q ++ d.arrivals).take k, moved s e ds n) := by
  obtain ⟨ho, rfl, he⟩ := hs
  subst hk
  refine ⟨_, s.drawCount, ?_, callRead_clean size ms hd ho he hc⟩
  exact ⟨rfl, rfl, rfl⟩

/-- RECV step 2 when readability is not signalled before the bound (R164). -/
theorem recvWait_of_timeout (h : d.accept = false ∨ 500 ≤ d.ticks) :
    ∃ e n, CleanEnv cfg (q ++ d.arrivals) e ∧ recvWait s = noMessage .noDataTimeout (moved s e ds n) := by
  obtain ⟨e, n, he, hcall⟩ := callWait_cleanEnv hd hs hc Config.rdTimeoutMs
  have hexpired : d.accept = false ∨ Config.rdTimeoutMs ≤ d.ticks := h
  have hnot : ¬ (d.accept && !decide (Config.rdTimeoutMs ≤ d.ticks)) = true := by
    simpa [imp_iff_not_or] using hexpired
  refine ⟨e, n, he, ?_⟩
  simp only [recvWait, hcall, if_neg hnot]

/-- RECV step 2 when readability is signalled in time (R164). -/
theorem recvWait_of_ready (hready : d.accept = true) (htime : d.ticks < 500) :
    ∃ e n, CleanEnv cfg (q ++ d.arrivals) e ∧ recvWait s = recvAvail (moved s e ds n) := by
  obtain ⟨e, n, he, hcall⟩ := callWait_cleanEnv hd hs hc Config.rdTimeoutMs
  have hearly : d.ticks < Config.rdTimeoutMs := htime
  have hin : (d.accept && !decide (Config.rdTimeoutMs ≤ d.ticks)) = true := by
    simpa [hready] using hearly
  refine ⟨e, n, he, ?_⟩
  simp only [recvWait, hcall, if_pos hin]

/-- RECV step 3 (R165): whether anything is pending decides. -/
theorem recvAvail_clean :
    ∃ e n, CleanEnv cfg (q ++ d.arrivals) e ∧
      recvAvail s = if q ++ d.arrivals = [] then noMessage .noDataEmpty (moved s e ds n)
        else recvRead (moved s e ds n) := by
  obtain ⟨e, n, he, hcall⟩ := callAvailable_cleanEnv hd hs hc
  refine ⟨e, n, he, ?_⟩
  simp only [recvAvail, hcall, List.length_eq_zero_iff]

/-- RECV step 4 (R166 to R168): the chunk is the first bytes of what is pending, and the others stay pending. -/
theorem recvRead_clean {k : Nat} (hk : min d.moves (min s.readRequest (q ++ d.arrivals).length) = k) :
    ∃ e n, CleanEnv cfg ((q ++ d.arrivals).drop k) e ∧
      recvRead s = if (q ++ d.arrivals).take k = [] then noMessage .noDataZeroRead (moved s e ds n)
        else decodeAgain (rbufAppend ((q ++ d.arrivals).take k) (moved s e ds n)) := by
  obtain ⟨e, n, he, hcall⟩ := callRead_cleanEnv hd hs hc hk Config.rdTimeoutMs
  refine ⟨e, n, he, ?_⟩
  simp only [recvRead, hcall]

end

/-! ## The second DECODE -/

theorem decodeAgain_draws (s : State) : (decodeAgain s).state.draws = s.draws := by
  obtain ⟨m, k, -, h⟩ | ⟨r, -, h⟩ | ⟨-, h⟩ := decodeAgain_cases s <;> rw [h] <;> rfl

theorem decodeAgain_rxAll (s : State) : (decodeAgain s).state.hist.rxAll = s.hist.rxAll := by
  obtain ⟨m, k, -, h⟩ | ⟨r, -, h⟩ | ⟨-, h⟩ := decodeAgain_cases s <;> rw [h] <;> rfl

theorem decodeAgain_of_incomplete {s : State} (h : decodeFrame s.rbuf = .incomplete) :
    decodeAgain s = noMessage .noDataIncomplete s := by
  simp only [decodeAgain, h]

theorem decodeAgain_of_complete {s : State} {m : Message} {k : Nat} (h : decodeFrame s.rbuf = .complete m k) :
    decodeAgain s = deliver m k s := by
  simp only [decodeAgain, h]

/-- Settles O30, call by call: each takes one draw and leaves the device without errors. -/
theorem recvWaitsAsksAndReads : Obligations.RecvWaitsAsksAndReads := by
  intro s d₁ d₂ d₃ ds cfg hidle ho hd hdev herr hc₁ hc₂ hc₃ hinc q₂ q₃ c
  refine ⟨_, exec_recv_idle hidle, ?_⟩
  rw [commandRecv_incomplete ho hinc]
  have hs : CleanEnv cfg s.env.rxq s.env := ⟨hdev, rfl, herr⟩
  by_cases hwait : d₁.accept = false ∨ 500 ≤ d₁.ticks
  · rw [if_pos hwait]
    obtain ⟨e, n, he, h⟩ := recvWait_of_timeout hd hs hc₁ hwait
    rw [h]
    exact ⟨rfl, rfl, rfl, he.rxq⟩
  rw [if_neg hwait]
  rw [not_or, Bool.not_eq_false, Nat.not_le] at hwait
  obtain ⟨e₁, n₁, he₁, h₁⟩ := recvWait_of_ready hd hs hc₁ hwait.1 hwait.2
  obtain ⟨e₂, n₂, he₂, h₂⟩ := recvAvail_clean (s := moved s e₁ _ n₁) rfl he₁ hc₂
  rw [h₁, h₂]
  by_cases hnone : q₂ = []
  · rw [if_pos hnone, if_pos hnone]
    exact ⟨rfl, rfl, rfl, he₂.rxq.trans hnone⟩
  rw [if_neg hnone, if_neg hnone, moved_moved]
  obtain ⟨e₃, n₃, he₃, h₃⟩ := recvRead_clean (s := moved s e₂ _ n₂)
    (k := min d₃.moves (min (readRequest s.cap s.rbuf.length) q₃.length)) rfl he₂ hc₃ rfl
  have hsplit : c ++ e₃.rxq = q₃ := by rw [he₃.rxq]; exact List.take_append_drop _ _
  rw [h₃]
  by_cases hzero : c = []
  · rw [if_pos hzero, if_pos hzero]
    rw [hzero, List.nil_append] at hsplit
    exact ⟨rfl, rfl, rfl, hsplit⟩
  rw [if_neg hzero, if_neg hzero, decodeAgain_rxAll, decodeAgain_draws, decodeAgain_env]
  exact ⟨rfl, rfl, hsplit, fun h => by rw [decodeAgain_of_incomplete h]; rfl⟩

/-! ## A frame in two chunks -/

/-- Between two commands of an open session: `b` in the buffer, the answers `ds` decided, and a device without errors
on which nothing is pending. -/
structure Listening (cfg : SerialConfig) (b : Bytes) (ds : List Draw) (s : State) : Prop where
  fsm : s.fsm = .idle
  sess : s.sess = .opened
  rbuf : s.rbuf = b
  draws : s.draws = ds
  env : CleanEnv cfg [] s.env

theorem Listening.noMessage {cfg : SerialConfig} {b : Bytes} {ds : List Draw} {s : State} (h : Listening cfg b ds s)
    (c : Cause) : Listening cfg b ds (noMessage c s).state :=
  ⟨rfl, h.sess, h.rbuf, h.draws, h.env⟩

/-- The three answers of one RECV that bring it `chunk`: readable in time, all of it there before the read, and the
read takes it whole. -/
structure Brings (chunk : Bytes) (d₁ d₂ d₃ : Draw) : Prop where
  clean : ∀ d ∈ [d₁, d₂, d₃], cleanDraw d = true
  ready : d₁.accept = true
  inTime : d₁.ticks < 500
  arrive : d₁.arrivals ++ d₂.arrivals = chunk
  nothingLater : d₃.arrivals = []
  taken : chunk.length ≤ d₃.moves

/-- RECV with an Incomplete buffer appends the chunk its calls bring and decodes again (R164 to R169). -/
theorem exec_recv_brings {cfg : SerialConfig} {b chunk : Bytes} {d₁ d₂ d₃ : Draw} {ds : List Draw} {s : State}
    (hs : Listening cfg b (d₁ :: d₂ :: d₃ :: ds) s) (hd : Brings chunk d₁ d₂ d₃) (hinc : decodeFrame b = .incomplete)
    (hne : chunk ≠ []) (hfits : b.length + chunk.length ≤ 259) :
    ∃ t, Listening cfg (b ++ chunk) ds t ∧ exec .recv s = .next (decodeAgain t).state := by
  obtain ⟨hidle, ho, rfl, hdraws, henv⟩ := hs
  obtain ⟨hclean, hready, htime, harrive, hlater, htaken⟩ := hd
  simp only [List.forall_mem_cons] at hclean
  obtain ⟨hc₁, hc₂, hc₃, -⟩ := hclean
  obtain ⟨e₁, n₁, he₁, h₁⟩ := recvWait_of_ready hdraws henv hc₁ hready htime
  obtain ⟨e₂, n₂, he₂, h₂⟩ := recvAvail_clean (s := moved s e₁ _ n₁) rfl he₁ hc₂
  rw [List.nil_append, harrive] at he₂ h₂
  have hall : min d₃.moves (min (readRequest s.cap s.rbuf.length) (chunk ++ d₃.arrivals).length) = chunk.length := by
    rw [hlater, List.append_nil, Nat.min_eq_right (le_readRequest s.cap hfits), Nat.min_eq_right htaken]
  obtain ⟨e₃, n₃, he₃, h₃⟩ := recvRead_clean (s := moved s e₂ _ n₂) rfl he₂ hc₃ hall
  rw [hlater, List.append_nil] at he₃ h₃
  rw [List.drop_length] at he₃
  rw [List.take_length, if_neg hne, moved_moved] at h₃
  refine ⟨rbufAppend chunk (moved s e₃ ds n₃), ⟨hidle, ho, rfl, rfl, he₃⟩, ?_⟩
  rw [exec_recv_idle hidle, commandRecv_incomplete ho hinc, h₁, h₂, if_neg hne, moved_moved, h₃]

theorem encodeMessage_length_le {m : Message} (h : m.encodable = true) : (encodeMessage m).length ≤ 12 :=
  (decodeFrame_complete_consumed (decodeFrame_encodeMessage h)).2.1

/-- Settles O33: with the first chunk the frame is unfinished, and both chunks together are the frame. -/
theorem splitFrameIsReassembled : Obligations.SplitFrameIsReassembled := by
  intro s m j a₁ a₂ b₁ b₂ c₁ c₂ ds cfg hidle ho hb hdev hq herr hm hj hlt hdraws hclean hra₁ hta₁ hra₂ hta₂ harr₁ hl₁
    hmv₁ harr₂ hl₂ hmv₂
  have henc := encodable_of_canonical hm
  have hsize := encodeMessage_length_le henc
  have hprefix := properPrefixOfAFrameIsIncomplete m j ((encodable_iff m).mp henc) hlt
  have hwhole := decodeFrame_encodeMessage henc
  rw [canonicalForm_of_canonical hm] at hwhole
  generalize encodeMessage m = f at *
  have htake : (f.take j).length = j := List.length_take_of_le (Nat.le_of_lt hlt)
  have hdrop : (f.drop j).length = f.length - j := List.length_drop
  have first : Brings (f.take j) a₁ b₁ c₁ :=
    ⟨fun d h => hclean d (List.mem_append_left [a₂, b₂, c₂] h), hra₁, hta₁, harr₁, hl₁, by omega⟩
  have second : Brings (f.drop j) a₂ b₂ c₂ :=
    ⟨fun d h => hclean d (List.mem_append_right [a₁, b₁, c₁] h), hra₂, hta₂, harr₂, hl₂, by omega⟩
  obtain ⟨t, ht, hrecv₁⟩ := exec_recv_brings ⟨hidle, ho, hb, hdraws, hdev, hq, herr⟩ first rfl
    (List.ne_nil_of_length_pos (by omega)) (by rw [List.length_nil]; omega)
  rw [List.nil_append] at ht
  rw [decodeAgain_of_incomplete (by rw [ht.rbuf]; exact hprefix)] at hrecv₁
  obtain ⟨u, hu, hrecv₂⟩ := exec_recv_brings (ht.noMessage .noDataIncomplete) second hprefix
    (List.ne_nil_of_length_pos (by omega)) (by omega)
  rw [List.take_append_drop] at hu
  rw [decodeAgain_of_complete (by rw [hu.rbuf]; exact hwhole)] at hrecv₂
  refine ⟨_, _, hrecv₁, rfl, rfl, ht.rbuf, hrecv₂, rfl, rfl, ?_⟩
  show u.rbuf.drop f.length = []
  rw [hu.rbuf, List.drop_length]

/-! ## The causes RECV ends with -/

/-- What RECV leaves, by the cause it ends with (R174): `B` is the buffer before the read and `c` what the read
returned. -/
def Leaves (B c : Bytes) (t : State) : Option Cause → Prop
  | none => ∃ m k, decodeFrame (B ++ c) = .complete m k ∧
      t.rbuf = (B ++ c).drop k ∧ t.rxmsg = m ∧ t.status = 0 ∧ c ≠ []
  | some cause => t.rxmsg = zeroMsg ∧ t.status = 1 ∧
      match cause with
      | .noDataTimeout | .noDataEmpty | .noDataZeroRead => t.rbuf = B ∧ c = []
      | .noDataInvalid r => c ≠ [] ∧ decodeFrame (B ++ c) = .invalid r ∧ t.rbuf = (B ++ c).drop 1
      | .noDataIncomplete => c ≠ [] ∧ decodeFrame (B ++ c) = .incomplete ∧ t.rbuf = B ++ c
      | _ => False

/-- RECV of `s` ended as `f` after its read returned `c`: what that leaves of the buffer `B`, and the frame (R173). -/
structure Receives (s : State) (B c : Bytes) (f : Finished) : Prop where
  rxAll : f.state.hist.rxAll = s.hist.rxAll ++ c
  frame : f.state = { s.toIdle with
    rbuf := f.state.rbuf, rxmsg := f.state.rxmsg, status := f.state.status, env := f.state.env
    draws := f.state.draws, drawCount := f.state.drawCount, hist := f.state.hist }
  wireTx : f.state.env.wireTx = s.env.wireTx
  dev : f.state.env.dev = s.env.dev
  leaves : Leaves B c f.state f.cause

theorem decodeAgain_receives {s : State} {e : Env} {ms : Nat} (q : QuietFrom ms s.env e) {c : Bytes} (hc : c ≠ [])
    (ds : List Draw) (n : Nat) : Receives s s.rbuf c (decodeAgain (rbufAppend c (moved s e ds n))) := by
  obtain ⟨m, k, hd, h⟩ | ⟨r, hd, h⟩ | ⟨hd, h⟩ := decodeAgain_cases (rbufAppend c (moved s e ds n)) <;> rw [h]
  · exact ⟨rfl, rfl, q.wireTx, q.dev, m, k, hd, rfl, rfl, rfl, hc⟩
  · exact ⟨rfl, rfl, q.wireTx, q.dev, rfl, rfl, hc, hd, rfl⟩
  · exact ⟨rfl, rfl, q.wireTx, q.dev, rfl, rfl, hc, hd, rfl⟩

/-- The table for RECV from step 2 on. -/
theorem recvWait_receives (s : State) : ∃ c, Receives s s.rbuf c (recvWait s) := by
  obtain ⟨e, ds, n, ⟨q, h⟩ | ⟨q, h | h | ⟨c, hc, -, h⟩⟩⟩ := recvWait_cases s <;> rw [h]
  · exact ⟨[], (List.append_nil _).symm, rfl, q.wireTx, q.dev, rfl, rfl, rfl, rfl⟩
  · exact ⟨[], (List.append_nil _).symm, rfl, q.wireTx, q.dev, rfl, rfl, rfl, rfl⟩
  · exact ⟨[], (List.append_nil _).symm, rfl, q.wireTx, q.dev, rfl, rfl, rfl, rfl⟩
  · exact ⟨c, decodeAgain_receives q hc ds n⟩

/-- Settles O29: RECV goes on to its wait with the buffer `B`. -/
theorem recvCausesAndBuffers : Obligations.RecvCausesAndBuffers := by
  intro s hidle ho hno B
  have hrecv : ∃ c, Receives s B c (commandRecv s) := by
    cases hv : decodeFrame s.rbuf with
    | complete m k => exact absurd hv (hno m k)
    | incomplete =>
      have hB : B = s.rbuf := if_pos hv
      rw [hB, commandRecv_incomplete ho hv]
      exact recvWait_receives s
    | invalid r =>
      have hB : B = (dropOne s).rbuf := if_neg (by rw [hv]; exact Verdict.noConfusion)
      obtain ⟨c, hrx, hframe, hwire, hdev, hleaves⟩ := recvWait_receives (dropOne s)
      rw [hB, commandRecv_invalid ho hv]
      exact ⟨c, hrx, hframe, hwire, hdev, hleaves⟩
  obtain ⟨c, hrx, hframe, hwire, hdev, hleaves⟩ := hrecv
  exact ⟨_, c, exec_recv_idle hidle, rfl, hrx, hframe, hwire, hdev, hleaves⟩

/-! ## The transmit side -/

/-- `s` with other inputs of the host. -/
def withHost (p : HostPort) (s : State) : State := { s with host := p }

/-- A transaction does the same whatever the host's inputs are, and leaves them. -/
def IgnoresHost (f : State → Finished) : Prop := ∀ p s, (f (withHost p s)).state = withHost p (f s).state

theorem noMessage_ignoresHost (c : Cause) : IgnoresHost (noMessage c) := fun _ _ => rfl

theorem deliver_ignoresHost (m : Message) (k : Nat) : IgnoresHost (deliver m k) := fun _ _ => rfl

theorem decodeAgain_ignoresHost : IgnoresHost decodeAgain := fun p s => by
  have hbuf : (withHost p s).rbuf = s.rbuf := rfl
  simp only [decodeAgain, hbuf]
  cases decodeFrame s.rbuf <;> rfl

theorem nextDraw_withHost (p : HostPort) (s : State) :
    (withHost p s).nextDraw = (s.nextDraw.1, withHost p s.nextDraw.2) := by
  have hdraws : (withHost p s).draws = s.draws := rfl
  unfold State.nextDraw
  rw [hdraws]
  cases s.draws <;> rfl

theorem callWait_withHost (ms : Nat) (p : HostPort) (s : State) :
    callWait ms (withHost p s) = ((callWait ms s).1, withHost p (callWait ms s).2) := by
  simp only [callWait, nextDraw_withHost]
  rfl

theorem callAvailable_withHost (p : HostPort) (s : State) :
    callAvailable (withHost p s) = ((callAvailable s).1, withHost p (callAvailable s).2) := by
  simp only [callAvailable, nextDraw_withHost]
  rfl

theorem callRead_withHost (n ms : Nat) (p : HostPort) (s : State) :
    callRead n ms (withHost p s) = ((callRead n ms s).1, withHost p (callRead n ms s).2) := by
  simp only [callRead, nextDraw_withHost]
  rfl

theorem recvRead_ignoresHost : IgnoresHost recvRead := fun p s => by
  have hrequest : (withHost p s).readRequest = s.readRequest := rfl
  simp only [recvRead, hrequest, callRead_withHost]
  split
  · exact noMessage_ignoresHost _ p _
  · exact decodeAgain_ignoresHost p (rbufAppend _ _)

theorem recvAvail_ignoresHost : IgnoresHost recvAvail := fun p s => by
  simp only [recvAvail, callAvailable_withHost]
  split
  · exact noMessage_ignoresHost _ p _
  · exact recvRead_ignoresHost p _

theorem recvWait_ignoresHost : IgnoresHost recvWait := fun p s => by
  simp only [recvWait, callWait_withHost]
  split
  · exact recvAvail_ignoresHost p _
  · exact noMessage_ignoresHost _ p _

theorem commandRecv_ignoresHost : IgnoresHost commandRecv := fun p s => by
  obtain ⟨hc, h⟩ | ⟨ho, m, k, hd, h⟩ | ⟨ho, r, hd, h⟩ | ⟨ho, hd, h⟩ := commandRecv_cases s <;> rw [h]
  · rw [commandRecv_closed (s := withHost p s) hc]
    exact noMessage_ignoresHost _ p s
  · rw [commandRecv_buffered (s := withHost p s) ho hd]
    exact deliver_ignoresHost m k p s
  · rw [commandRecv_invalid (s := withHost p s) ho hd]
    exact recvWait_ignoresHost p (dropOne s)
  · rw [commandRecv_incomplete (s := withHost p s) ho hd]
    exact recvWait_ignoresHost p s

theorem recvWait_dev (s : State) : (recvWait s).state.env.dev = s.env.dev := by
  obtain ⟨c, h⟩ := recvWait_receives s
  exact h.dev

theorem commandRecv_dev (s : State) : (commandRecv s).state.env.dev = s.env.dev := by
  obtain ⟨-, h⟩ | ⟨-, m, k, -, h⟩ | ⟨-, r, -, h⟩ | ⟨-, -, h⟩ := commandRecv_cases s <;> rw [h]
  · rfl
  · rfl
  · exact recvWait_dev (dropOne s)
  · exact recvWait_dev s

/-- Settles O31: the frame of RECV, and RECV commutes with an exchange of the host's inputs. -/
theorem recvIgnoresTheTransmitSide : Obligations.RecvIgnoresTheTransmitSide := by
  intro s t p h
  obtain ⟨hidle, rfl⟩ := exec_instr_next (c := .recv) h
  refine ⟨commandRecv_wireTx s, commandRecv_dev s, (commandRecv_sameInputs s).host, ?_⟩
  calc exec .recv { s with host := p }
      = .next (commandRecv (withHost p s)).state := exec_recv_idle (s := withHost p s) hidle
    _ = .next (withHost p (commandRecv s).state) := by rw [commandRecv_ignoresHost]

end Sys2Proof.Machine

/-! Proofs of the family 43_transportport.md: the next state of each transport primitive run as a step of its own.
First each primitive after the ticks of its call, then the rows of the table. -/

namespace Sys2Proof.Machine

/-! ## Each primitive after the ticks of its call -/

theorem advance_pass_eq (d : Draw) (ms : Nat) (e : Env) :
    (e.advance d).pass ms = { e.advance d with clock := e.clock + ms } := by
  simp [Env.pass]

/-- `T.open` after `ms` ticks: a fresh device, or what the line does meanwhile (R191, R192). -/
theorem openPort_pass (dev baud : Nat) (d : Draw) (ms : Nat) (e : Env) :
    (e.pass ms).openPort dev baud d =
      (d.accept, if d.accept then ⟨.opened (serialConfig dev baud), [], e.wireTx, [], false, e.clock + ms⟩
        else { e.advance d with clock := e.clock + ms }) := by
  unfold Env.openPort
  split <;> rename_i haccept
  · simp [Env.purge, haccept]
  · simp [advance_pass, advance_pass_eq, haccept]

/-- `T.waitReadable` after `ms` ticks: the line's activity alone, any error answered for (R196). -/
theorem waitReadable_pass (expired : Bool) (d : Draw) (ms : Nat) (e : Env) :
    (e.pass ms).waitReadable expired d =
      (d.accept && !expired && !(e.advance d).commErr,
        { e.advance d with commErr := false, clock := e.clock + ms }) := by
  simp only [Env.waitReadable, advance_pass, advance_pass_eq]

/-- `T.read` after `ms` ticks: what is pending then is cut at the size of the chunk (R197). -/
theorem read_pass (maxBytes : Nat) (d : Draw) (ms : Nat) (e : Env) :
    (e.pass ms).read maxBytes d =
      ((e.advance d).rxq.take ((e.advance d).chunkSize maxBytes d),
        { e.advance d with
          rxq := (e.advance d).rxq.drop ((e.advance d).chunkSize maxBytes d)
          commErr := false
          clock := e.clock + ms }) := by
  simp only [Env.read, advance_pass, advance_pass_eq]
  rfl

/-! ## T.open -/

/-- Settles O37: the answer and the device are those of `openPort_pass`, and a closed line does nothing. -/
theorem transportOpenAnswers : Obligations.TransportOpenAnswers := by
  intro dev baud s d
  refine ⟨?_, advance_closed d s.env⟩
  calc exec (.tOpen dev baud) s
      = .next ((callOpen dev baud s).2.answer (.openResult (callOpen dev baud s).1)) := rfl
    _ = _ := by rw [callOpen_eq, openPort_pass]; rfl

/-! ## T.close and T.purge -/

/-- `T.close` as a step: the device is closed and nothing is pending, whatever was before (R193). -/
theorem exec_tClose (s : State) :
    exec .tClose s = .next { s.nextDraw.2 with
      result := .closeDone, env := ⟨.closed, [], s.env.wireTx, [], false, s.env.clock + s.nextDraw.1.ticks⟩ } := by
  calc exec .tClose s
      = .next ((callClose s).answer .closeDone) := rfl
    _ = _ := by rw [callClose_eq, closePort_eq]; rfl

/-- `T.close` on a device already closed and purged takes a draw and its ticks and changes nothing else (R193). -/
theorem exec_tClose_of_closed {t : State} {wire : Bytes} {clock : Nat} (hr : t.result = .closeDone)
    (he : t.env = ⟨.closed, [], wire, [], false, clock⟩) :
    exec .tClose t =
      .next { t.nextDraw.2 with env := { t.env with clock := t.env.clock + t.nextDraw.1.ticks } } := by
  have hresult : Answer.closeDone = t.nextDraw.2.result := by rw [nextDraw_result, hr]
  rw [exec_tClose, hresult, he]

/-- Settles O38: the state the first `T.close` leaves is one `exec_tClose_of_closed` speaks of. -/
theorem transportCloseAndPurge : Obligations.TransportCloseAndPurge := by
  intro s
  refine ⟨exec_tClose s, fun t u hfirst hsecond => ?_, rfl⟩
  rw [exec_tClose] at hfirst
  injection hfirst with ht
  have hr : t.result = .closeDone := by rw [← ht]
  have he : t.env = ⟨.closed, [], s.env.wireTx, [], false, s.env.clock + s.nextDraw.1.ticks⟩ := by rw [← ht]
  rw [exec_tClose_of_closed hr he] at hsecond
  injection hsecond with hu
  exact hu.symm

/-! ## T.write -/

/-- Settles O39: the count is `Env.acceptedCount` of the bytes given. -/
theorem transportWriteTakesAPrefix : Obligations.TransportWriteTakesAPrefix := by
  intro bytes ms s d line k
  have hk : k = line.acceptedCount bytes.length (decide (ms ≤ d.ticks)) d := by
    simp [k, Env.acceptedCount, or_comm]
  refine ⟨hk ▸ acceptedCount_le _ _ _ _, ?_⟩
  calc exec (.tWrite bytes ms) s
      = .next ((callWrite bytes ms s).2.answer (.written (callWrite bytes ms s).1)) := rfl
    _ = _ := by rw [callWrite_eq, write_pass, hk]; rfl

/-! ## T.waitReadable and T.available -/

/-- Settles O40: both leave what the line pends, and the wait is ready only before its bound. -/
theorem transportWaitAndAvailableRemoveNothing : Obligations.TransportWaitAndAvailableRemoveNothing := by
  intro ms s d line
  constructor
  · have hbound : decide (d.ticks < ms) = !decide (ms ≤ d.ticks) := by
      rw [← decide_not, decide_eq_decide, Nat.not_le]
    calc exec (.tWaitReadable ms) s
        = .next ((callWait ms s).2.answer (.readable (callWait ms s).1)) := rfl
      _ = _ := by rw [callWait_eq, waitReadable_pass, hbound]; rfl
  · calc exec .tAvailable s
        = .next ((callAvailable s).2.answer (.count (callAvailable s).1)) := rfl
      _ = _ := by rw [callAvailable_eq]; rfl

/-! ## T.read -/

/-- `T.read` as a step: the chunk is handed back, the rest stays pending (R197, R200). -/
theorem exec_tRead (maxBytes ms : Nat) (s : State) :
    exec (.tRead maxBytes ms) s = .next { s.nextDraw.2 with
      result := .chunk ((s.env.advance s.nextDraw.1).rxq.take
        ((s.env.advance s.nextDraw.1).chunkSize maxBytes s.nextDraw.1))
      env := { s.env.advance s.nextDraw.1 with
        rxq := (s.env.advance s.nextDraw.1).rxq.drop ((s.env.advance s.nextDraw.1).chunkSize maxBytes s.nextDraw.1)
        commErr := false
        clock := s.env.clock + min s.nextDraw.1.ticks ms } } := by
  calc exec (.tRead maxBytes ms) s
      = .next ((callRead maxBytes ms s).2.answer (.chunk (callRead maxBytes ms s).1)) := rfl
    _ = _ := by rw [callRead_eq, read_pass]; rfl

theorem chunkSize_of_commErr {e : Env} (maxBytes : Nat) (d : Draw) (h : e.commErr = true) :
    e.chunkSize maxBytes d = 0 := if_pos h

theorem chunkSize_of_clean {e : Env} (maxBytes : Nat) (d : Draw) (h : e.commErr = false) :
    e.chunkSize maxBytes d = min d.moves (min maxBytes e.rxq.length) := by
  simp [Env.chunkSize, h]

/-- Settles O41: `Env.chunkSize` cuts what is pending into the chunk and the rest. -/
theorem transportReadReturnsAPrefix : Obligations.TransportReadReturnsAPrefix := by
  intro maxBytes ms s d line
  obtain ⟨hmax, hpending⟩ := chunkSize_le maxBytes d line
  have hlen : (line.rxq.take (line.chunkSize maxBytes d)).length = line.chunkSize maxBytes d :=
    List.length_take_of_le hpending
  refine ⟨_, _, (List.take_append_drop (line.chunkSize maxBytes d) line.rxq).symm, hlen.trans_le hmax, fun herr => ?_,
    fun hclean => hlen.trans (chunkSize_of_clean maxBytes d hclean), exec_tRead maxBytes ms s⟩
  rw [chunkSize_of_commErr maxBytes d herr, List.take_zero]

/-- Settles O42: the chunk and the rest are what is pending (O41), and on a clean line that is what was pending before
and what arrived. -/
theorem cleanReadKeepsTheStream : Obligations.CleanReadKeepsTheStream := by
  intro s t maxBytes ms c cfg ho hclean hexec hc
  obtain ⟨c', rest, hsplit, -, -, -, hread⟩ := transportReadReturnsAPrefix maxBytes ms s
  rw [hread] at hexec
  injection hexec with ht
  subst ht
  injection hc with hc
  subst hc
  have hevent : s.nextDraw.1.event = none := Option.isNone_iff_eq_none.mp hclean
  refine ⟨?_, advance_wireTx _ _, advance_dev _ _⟩
  calc c' ++ rest
      = (s.env.advance s.nextDraw.1).rxq := hsplit.symm
    _ = s.env.rxq ++ s.nextDraw.1.arrivals := by rw [advance_clean _ _ cfg ho hevent]

end Sys2Proof.Machine

/-! Proofs of the family 44_driverfacade_commands.md: what OPEN and CLOSE leave, the commands that always fail, and
that a host which serialises its commands never stops the machine. -/

namespace Sys2Proof.Machine

/-! ## OPEN -/

/-- OPEN with an open session or bad operands is refused before it calls the transport (R211, R215). -/
theorem commandOpen_refused {s : State} (h : s.sess = .opened ∨ s.openOperandsOk = false) :
    ∃ c, commandOpen s = raise c s := by
  obtain ⟨-, e⟩ | ⟨-, -, e⟩ | ⟨hc, hok, -⟩ := commandOpen_cases s
  · exact ⟨_, e⟩
  · exact ⟨_, e⟩
  · rw [hc, hok] at h
    exact absurd h (by decide)

theorem openOperandsOk_eq_false {s : State} (h : s.host.baudOk = false ∨ s.host.portOk = false) :
    s.openOperandsOk = false := Bool.and_eq_false_iff.mpr h

theorem baudOkOf_eq_false {token : List Char} (h : token ≠ ['1', 'M']) : baudOkOf token = false :=
  beq_eq_false_iff_ne.mpr h

theorem commandOpen_calls {s : State} (hc : s.sess = .closed) (hok : s.openOperandsOk = true) :
    commandOpen s = afterOpen (callOpen s.host.port Config.baudDefault s).1
      (callOpen s.host.port Config.baudDefault s).2 := by
  simp only [commandOpen, hc, hok, if_true]

/-- OPEN that reaches the transport ends on the answer of the next draw (R211, log 2). -/
theorem exec_open_calls {s : State} (hidle : s.fsm = .idle) (hc : s.sess = .closed) (hbaud : s.host.baudOk = true)
    (hport : s.host.portOk = true) :
    exec .openCmd s = .next (afterOpen s.nextDraw.1.accept { s.nextDraw.2 with
      env := ((s.env.pass s.nextDraw.1.ticks).openPort s.host.port Config.baudDefault s.nextDraw.1).2 }).state := by
  have hok : s.openOperandsOk = true := Bool.and_eq_true_iff.mpr ⟨hbaud, hport⟩
  calc exec .openCmd s
      = .next (commandOpen s).state := whenIdle_idle commandOpen hidle
    _ = _ := by rw [commandOpen_calls hc hok, callOpen_eq, openPort_pass]

/-- A successful OPEN starts the session with an empty buffer and a fresh record (R213). -/
theorem afterOpen_ok_state (s : State) :
    (afterOpen true s).state = { s.toIdle with sess := .opened, rbuf := [], status := 0, hist := ⟨[], []⟩ } := by
  simp [afterOpen, rbufTrim, State.rlen, State.toIdle, State.report, Config.statusOk]

/-- A failed OPEN writes `STATUS` alone (R214). -/
theorem afterOpen_fail_state (s : State) : (afterOpen false s).state = { s.toIdle with status := 1 } := rfl

/-- Settles O20: a refusal is `raise` on the state before; a failing `T.open` leaves what the line did meanwhile. -/
theorem openFailures : Obligations.OpenFailures := by
  intro s hidle
  constructor
  · intro h
    have hrefused : s.sess = .opened ∨ s.openOperandsOk = false := by
      obtain ho | ⟨token, htoken, hbaud⟩ | hport := h
      · exact .inl ho
      · exact .inr (openOperandsOk_eq_false (.inl (hbaud.trans (baudOkOf_eq_false htoken))))
      · exact .inr (openOperandsOk_eq_false (.inr hport))
    obtain ⟨c, e⟩ := commandOpen_refused hrefused
    calc exec .openCmd s
        = .next (commandOpen s).state := whenIdle_idle commandOpen hidle
      _ = .next { s.toIdle with status := 1 } := by rw [e]; rfl
  · intro hc hbaud hport hfail
    have hopen := exec_open_calls hidle hc hbaud hport
    rw [openPort_pass, hfail, afterOpen_fail_state] at hopen
    refine ⟨_, hopen, rfl, advance_dev _ _, advance_wireTx _ _, fun hdev => ?_⟩
    simp [advance_closed _ _ hdev]

/-- Settles O21: on the draw's ok the device is the fresh one of `openPort_pass`. -/
theorem openSucceeds : Obligations.OpenSucceeds := by
  intro s hidle hc hbaud hport hok
  have hopen := exec_open_calls hidle hc hbaud hport
  rw [openPort_pass, hok, afterOpen_ok_state] at hopen
  exact ⟨_, hopen, rfl, rfl, rfl, rfl, rfl⟩

/-! ## CLOSE -/

/-- Settles O22: the release of the device moves the environment and the draws only, and leaves nothing pending. -/
theorem closeAlwaysSucceeds : Obligations.CloseAlwaysSucceeds := by
  intro s hidle
  have hclose : exec .closeCmd s = .next (commandClose s).state := whenIdle_idle commandClose hidle
  obtain ⟨ho, e⟩ | ⟨hc, e⟩ := commandClose_cases s <;> rw [e] at hclose
  · have hstate : (succeed (endSession (callClose s))).state =
        { (callClose s).toIdle with sess := .closed, rbuf := [], status := 0 } := afterClose_state _
    rw [hstate, callClose_moved, callClose_env, closePort_eq] at hclose
    exact ⟨fun _ => ⟨_, hclose, rfl, rfl, rfl, rfl, rfl⟩, fun hc => absurd (ho.symm.trans hc) Session.noConfusion⟩
  · exact ⟨fun ho => absurd (ho.symm.trans hc) Session.noConfusion, fun _ => hclose⟩

/-! ## CHBAUD and the reserved selectors -/

/-- Settles O35: both are `raise`, which writes `STATUS` alone. -/
theorem chbaudAndReservedSelectorsFail : Obligations.ChbaudAndReservedSelectorsFail :=
  fun _ _ hidle => ⟨whenIdle_idle commandChbaud hidle, whenIdle_idle commandReserved hidle⟩

/-! ## What the state machine leaves unchanged -/

theorem startCommand_sameInputs (c : Command) (s : State) : SameInputs s (startCommand c s) := by
  cases c with
  | openSession =>
    obtain ⟨-, e⟩ | ⟨-, -, e⟩ | ⟨-, -, e⟩ := startOpen_cases s <;> rw [e]
    · exact ⟨rfl, rfl, rfl⟩
    · exact ⟨by simp, by simp, by simp⟩
    · exact ⟨rfl, rfl, rfl⟩
  | closeSession =>
    obtain ⟨-, e⟩ | ⟨-, e⟩ := startClose_cases s <;> rw [e]
    · exact ⟨by simp, by simp, by simp⟩
    · exact ⟨rfl, rfl, rfl⟩
  | recv =>
    obtain ⟨-, e⟩ | ⟨-, e⟩ := startRecv_cases s <;> rw [e]
    · exact ⟨rfl, rfl, rfl⟩
    · exact ⟨rfl, rfl, rfl⟩
  | send | chbaud | reserved => exact ⟨rfl, rfl, rfl⟩

theorem fromSEncode_sameInputs (s : State) : SameInputs s (fromSEncode s) := by
  obtain ⟨-, e⟩ | ⟨-, -, e⟩ | ⟨-, -, e⟩ := fromSEncode_cases s <;> rw [e]
  · exact ⟨rfl, rfl, rfl⟩
  · exact ⟨by simp, by simp, by simp⟩
  · exact ⟨rfl, rfl, rfl⟩

theorem fromRDecode1_sameInputs (s : State) : SameInputs s (fromRDecode1 s) := by
  obtain ⟨m, k, -, e⟩ | ⟨r, -, e⟩ | ⟨-, e⟩ := fromRDecode1_cases s <;> rw [e]
  · exact ⟨rfl, rfl, rfl⟩
  · exact ⟨by simp, by simp, by simp⟩
  · exact ⟨by simp, by simp, by simp⟩

theorem fromRAvail_sameInputs (s : State) : SameInputs s (fromRAvail s) := by
  obtain ⟨-, e⟩ | ⟨-, e⟩ := fromRAvail_cases s <;> rw [e, callAvailable_moved]
  · exact ⟨rfl, rfl, rfl⟩
  · exact ⟨by simp, by simp, by simp⟩

theorem waitEnd_sameInputs (x : Bool) (d : Draw) (s : State) : SameInputs s (waitEnd x d s) := by
  unfold waitEnd
  cases s.fsm
  case sWrite =>
    obtain ⟨c, e⟩ := afterWrite_eq_finish (encodeMessage s.txmsg).length
      (s.env.write (encodeMessage s.txmsg) x d).1 { s with env := (s.env.write (encodeMessage s.txmsg) x d).2 }
    simp only [writeEnds, e]
    exact ⟨rfl, rfl, rfl⟩
  case rWait => obtain ⟨-, e⟩ | ⟨-, e⟩ := waitEnds_cases x d s <;> simp only [e] <;> exact ⟨rfl, rfl, rfl⟩
  case rRead => obtain ⟨-, e⟩ | ⟨-, e⟩ := readEnds_cases x d s <;> simp only [e] <;> exact ⟨rfl, rfl, rfl⟩
  case oOpening =>
    obtain ⟨-, e⟩ | ⟨-, e⟩ := afterOpen_cases (s.env.openPort s.host.port Config.baudDefault d).1
      { s with env := (s.env.openPort s.host.port Config.baudDefault d).2 } <;> simp only [openEnds, e]
    · exact ⟨rfl, rfl, rfl⟩
    · exact ⟨rfl, rfl, rfl⟩
  all_goals exact ⟨rfl, rfl, rfl⟩

/-- A waiting state without a call takes its draw first (log 1). -/
theorem transition_wait_none {s : State} (hw : s.fsm.waits = true) (hc : s.call = none) :
    transition s = { s.nextDraw.2 with call := some s.nextDraw.1 } := by
  rw [transition_waits hw, whileWaiting, hc]

theorem transition_sameInputs (s : State) : SameInputs s (transition s) := by
  by_cases hw : s.fsm.waits = true
  · cases hc : s.call with
    | none => rw [transition_wait_none hw hc]; exact ⟨nextDraw_host s, nextDraw_cap s, nextDraw_pending s⟩
    | some d =>
      obtain ⟨x, -, e⟩ | ⟨-, -, e⟩ := transition_wait_cases hw hc <;> rw [e]
      · exact waitEnd_sameInputs x d s
      · exact ⟨rfl, rfl, rfl⟩
  · unfold transition
    cases hs : s.fsm <;> simp only [hs, Fsm.waits, not_true_eq_false] at hw
    case idle => exact ⟨rfl, rfl, rfl⟩
    case sEncode => exact fromSEncode_sameInputs s
    case rDecode1 => exact fromRDecode1_sameInputs s
    case rAvail => exact fromRAvail_sameInputs s
    case rDecode2 => exact decodeAgain_sameInputs s

/-! ## Runs that go on -/

/-- No step adds a request or reorders them (log 10). -/
theorem step_pending_suffix {s t : State} (h : step s = .next t) : t.pending <:+ s.pending := by
  obtain ⟨-, -, rfl⟩ | ⟨rest, hp, rfl⟩ | ⟨-, p, rest, hp, rfl⟩ | ⟨-, p, rest, hp, rfl⟩ | ⟨-, rfl⟩ := step_next_cases h
  · exact List.suffix_rfl
  · rw [hp]
    exact List.suffix_cons _ _
  · rw [(runCommand_sameInputs p.command (s.load p rest)).pending]
    obtain hp | hp := hp <;> rw [hp] <;> exact List.suffix_cons _ _
  · rw [(startCommand_sameInputs p.command (s.load p rest)).pending, hp]
    exact List.suffix_cons _ _
  · exact (transition_sameInputs s).pending ▸ List.suffix_rfl

theorem serialised_of_suffix {s t : State} (h : t.pending <:+ s.pending) (hs : s.serialised = true) :
    t.serialised = true := by
  rw [State.serialised, List.all_eq_true] at hs ⊢
  exact fun r hr => hs r (h.subset hr)

theorem serialised_head {s : State} {r : HostReq} {rest : List HostReq} (hs : s.serialised = true)
    (hp : s.pending = r :: rest) : r.serialised = true := by
  rw [State.serialised, hp, List.all_cons, Bool.and_eq_true] at hs
  exact hs.1

/-- A transaction the step runs is a command's, with the state machine idle or for a concurrent request (log 10). -/
theorem nextActivity_run {s t : State} {i : Instr} (h : nextActivity s = .run i t) :
    ∃ p rest, i = p.command.instr ∧ t = s.load p rest ∧ (s.fsm = .idle ∨ s.pending = .concurrent p :: rest) := by
  unfold nextActivity at h
  split at h
  case h_1 => cases h
  case h_2 p rest hp => cases h; exact ⟨p, rest, rfl, rfl, .inr hp⟩
  case h_3 p rest hp => split at h <;> cases h; exact ⟨p, rest, rfl, rfl, .inl ‹_›⟩
  case h_4 => split at h <;> cases h
  case h_5 => split at h <;> cases h

/-- A step answers unless the next request is a concurrent command and the state machine is busy (R246, R280). -/
theorem step_answers {s : State} (h : ∀ p rest, s.pending = .concurrent p :: rest → s.fsm = .idle) :
    ∃ t, step s = .next t := by
  cases hact : nextActivity s with
  | run i t =>
    obtain ⟨p, rest, rfl, rfl, hrun⟩ := nextActivity_run hact
    have hidle : (s.load p rest).fsm = .idle := hrun.elim id (h p rest)
    exact ⟨_, by rw [step, hact]; exact (exec_instr _ _).trans (whenIdle_idle _ hidle)⟩
  | rest | resetNow t | begin c t | proceed => exact ⟨_, by rw [step, hact]⟩

theorem safe_zero (s : State) : Safe 0 s := ⟨s, rfl⟩

theorem safe_succ {n : Nat} {s t : State} (h : step s = .next t) (k : Safe n t) : Safe (n + 1) s := by
  obtain ⟨u, hu⟩ := k
  have hcore : Sys2Proof.core.step s = .next t := h
  exact ⟨u, by simp only [Host.Core.run, hcore, hu]⟩

/-- Where a predicate makes a step answer in a state that has it again, every run goes on. -/
theorem safe_of_progress {P : State → Prop} (hP : ∀ s, P s → ∃ t, step s = .next t ∧ P t) :
    ∀ (n : Nat) (s : State), P s → Safe n s
  | 0, s, _ => safe_zero s
  | n + 1, s, hs => by
    obtain ⟨t, hstep, ht⟩ := hP s hs
    exact safe_succ hstep (safe_of_progress hP n t ht)

/-- Settles O49: a serialised state answers, and a step adds no request. -/
theorem serialisedRunsNeverStop : Obligations.SerialisedRunsNeverStop :=
  safe_of_progress fun s hs => by
    obtain ⟨t, hstep⟩ := step_answers (s := s) fun p rest hp => Bool.noConfusion (serialised_head hs hp)
    exact ⟨t, hstep, serialised_of_suffix (step_pending_suffix hstep) hs⟩

end Sys2Proof.Machine

/-! Proofs of the family 60_exceptions.md: which instructions change the session, and what a failing SEND or RECV keeps.
-/

namespace Sys2Proof.Machine

/-- CLOSE cannot fail (R219, R220). -/
theorem commandClose_status (s : State) : (commandClose s).state.status = Config.statusOk := by
  obtain ⟨-, e⟩ | ⟨-, e⟩ := commandClose_cases s <;> rw [e] <;> rfl

/-- Settles O56: of the cases of `exec_next_cases` only a command changes the session, and of the commands only an OPEN
that succeeds or a CLOSE. -/
theorem onlyOpenAndCloseChangeTheSession : Obligations.OnlyOpenAndCloseChangeTheSession := by
  intro i s t h hne
  obtain ⟨-, e, ds, n, a, rfl⟩ | ⟨c, rfl, -, rfl⟩ | ⟨c, l, p, -, -, rfl⟩ | ⟨c, -, rfl⟩ | ⟨-, rfl⟩ := exec_next_cases h
  · exact absurd rfl hne
  · obtain same | ⟨rfl, opened⟩ | ⟨rfl, closed⟩ := runCommand_sess c s
    · exact absurd same hne
    · have before : s.sess = .closed := Session.eq_closed fun hs => hne (opened.sess.trans hs.symm)
      exact .inl ⟨before, opened.sess, rfl, opened.status⟩
    · have before : s.sess = .opened := Session.eq_opened fun hs => hne (closed.trans hs.symm)
      exact .inr ⟨before, closed, rfl, commandClose_status s⟩
  · exact absurd rfl hne
  · exact absurd rfl hne
  · exact absurd rfl hne

/-- A SEND or RECV that answers accounts for the bytes received, whether it succeeds or fails (R183, R203, R245). -/
theorem Accounted.of_exec_send_or_recv {s t : State} (h : exec .send s = .next t ∨ exec .recv s = .next t) :
    Accounted s t := by
  obtain h | h := h
  · obtain ⟨-, rfl⟩ := exec_instr_next (c := .send) h
    exact Accounted.commandSend s
  · obtain ⟨-, rfl⟩ := exec_instr_next (c := .recv) h
    exact Accounted.commandRecv s

/-- Settles O58: the session and the bytes of `Accounted`, without the exactness of the groups. -/
theorem transportFailuresKeepTheSession : Obligations.TransportFailuresKeepTheSession := by
  intro s t h
  obtain ⟨sess, gs, c, hgroups, hread, hbuf, -⟩ := Accounted.of_exec_send_or_recv h
  exact ⟨sess, gs, c, hgroups, hread, hbuf⟩

end Sys2Proof.Machine

/-! Proofs of the family 70_reset_and_hazards.md: a command while another is in progress, hardware reset at any time and
the block after it, and the bounds of one RECV and one SEND. -/

namespace Sys2Proof.Machine

/-! ## A command while another is in progress -/

/-- Settles O36: every command is behind `whenIdle`. -/
theorem commandInProgressRefusesAnother : Obligations.CommandInProgressRefusesAnother :=
  fun c s hbusy => (exec_instr c s).trans (whenIdle_busy _ hbusy)

/-- A concurrent request is run at once, whatever the state machine does (log 22). -/
theorem step_concurrent {s : State} {p : HostPort} {rest : List HostReq} (hp : s.pending = .concurrent p :: rest) :
    step s = exec p.command.instr (s.load p rest) := by
  simp [step, nextActivity, hp]

/-- Settles O48: a concurrent command meets the refusal of O36, and any other step answers. -/
theorem stepIsRefusedOnlyForAConcurrentCommand : Obligations.StepIsRefusedOnlyForAConcurrentCommand := by
  intro s
  by_cases h : ∃ p rest, s.pending = .concurrent p :: rest ∧ s.fsm ≠ .idle
  · obtain ⟨p, rest, hp, hbusy⟩ := h
    refine .inl ⟨⟨p, rest, hp, hbusy⟩, ?_⟩
    rw [step_concurrent hp]
    exact commandInProgressRefusesAnother p.command (s.load p rest) hbusy
  · exact .inr ⟨h, step_answers fun p rest hp => not_not.mp fun hbusy => h ⟨p, rest, hp, hbusy⟩⟩

/-! ## Hardware reset -/

theorem step_reset {s : State} {rest : List HostReq} (hp : s.pending = .reset :: rest) :
    step s = .next (hardReset { s with pending := rest }) := by
  simp [step, nextActivity, hp]

/-- Of the abandoned calls only those of OPEN and CLOSE reach the device (R272). -/
theorem abandonedEnv_dev {s : State} (hopening : s.fsm ≠ .oOpening) (hclosing : s.fsm ≠ .cClosing) :
    (abandonedEnv s).dev = s.env.dev := by
  unfold abandonedEnv
  split
  · exact write_dev _ _ _ _
  · exact waitReadable_dev _ _ _
  · exact read_dev _ _ _
  · exact absurd ‹_› hopening
  · exact absurd ‹_› hclosing
  · rfl

/-- Of the abandoned calls only the write reaches the wire, with the first bytes of SEND's frame (R272). -/
theorem abandonedEnv_wireTx (s : State) :
    (abandonedEnv s).wireTx = s.env.wireTx ∨
      s.fsm = .sWrite ∧ ∃ k, (abandonedEnv s).wireTx = s.env.wireTx ++ (encodeMessage s.txmsg).take k := by
  unfold abandonedEnv
  split
  · exact .inr ⟨‹_›, _, write_wireTx _ _ _ _⟩
  · exact .inl (waitReadable_wireTx _ _ _)
  · exact .inl (read_wireTx _ _ _)
  · exact .inl (openPort_wireTx _ _ _ _)
  · exact .inl rfl
  · exact .inl rfl

/-- Settles O44: the registers are those of `resetBlock`, the environment that of the abandoned call. -/
theorem hardwareResetAtAnyTime : Obligations.HardwareResetAtAnyTime := by
  intro s rest hp
  refine ⟨_, step_reset hp, rfl, rfl, rfl, rfl, rfl, rfl, rfl, rfl, rfl, abandonedEnv_dev, ?_, fun _ => ?_⟩
  · exact (abandonedEnv_wireTx s).symm.imp_left And.left
  · obtain same | ⟨-, grown⟩ := abandonedEnv_wireTx s
    · exact ⟨0, same.trans (List.append_nil _).symm⟩
    · exact grown

/-- Settles O45: the reset state is idle, closed and without a request, so each clause is what the command does there
(O22, O23, O27, O35), and the step rests (O47). -/
theorem onlyOpenHelpsAfterReset : Obligations.OnlyOpenHelpsAfterReset := by
  intro p s hs
  subst hs
  obtain ⟨-, -, rests⟩ := stepAdvancesTheStateMachine
  exact ⟨rests _ rfl rfl, (closeAlwaysSucceeds _ rfl).2 rfl,
    sendRefusesWithoutWriting _ rfl (.inl rfl), recvWithoutASessionFails _ rfl rfl,
    (chbaudAndReservedSelectorsFail 0 _ rfl).1⟩

/-! ## What one RECV records -/

/-- What a RECV that ends in `t` records behind the bytes it drops: the frame of `RXMSG` with success, nothing
without (R163, R173). -/
def Delivers (fs : List Group) (t : State) : Prop :=
  fs = [] ∧ t.status = 1 ∨ ∃ bytes, fs = [.frame bytes t.rxmsg] ∧ t.status = 0

theorem Delivers.length_le {fs : List Group} {t : State} (h : Delivers fs t) : fs.length ≤ 1 := by
  obtain ⟨rfl, -⟩ | ⟨bytes, rfl, -⟩ := h
  · exact Nat.zero_le 1
  · exact Nat.le_refl 1

/-- On the way from `s` to the end `t` of a RECV at most `n` bytes are dropped, then at most one frame is delivered, and
at most `size` bytes are read (R293). -/
structure Records (n size : Nat) (s t : State) : Prop where
  groups : ∃ (ds : Bytes) (fs : List Group), ds.length ≤ n ∧
    t.hist.groups = s.hist.groups ++ (ds.map .dropped ++ fs) ∧ Delivers fs t
  rxAll : ∃ c, c.length ≤ size ∧ t.hist.rxAll = s.hist.rxAll ++ c

namespace Records

theorem mono {m n size big : Nat} {s t : State} (h : Records m size s t) (hn : m ≤ n) (hsize : size ≤ big) :
    Records n big s t := by
  obtain ⟨⟨ds, fs, hds, hgroups⟩, c, hc, hread⟩ := h
  exact ⟨⟨ds, fs, hds.trans hn, hgroups⟩, c, hc.trans hsize, hread⟩

theorem noMessage (c : Cause) (s : State) : Records 0 0 s (noMessage c s).state :=
  ⟨⟨[], [], Nat.le_refl 0, (List.append_nil _).symm, .inl ⟨rfl, rfl⟩⟩, [], Nat.le_refl 0, (List.append_nil _).symm⟩

theorem deliver (m : Message) (k : Nat) (s : State) : Records 0 0 s (deliver m k s).state :=
  ⟨⟨[], _, Nat.le_refl 0, rfl, .inr ⟨_, rfl, rfl⟩⟩, [], Nat.le_refl 0, (List.append_nil _).symm⟩

/-- Resynchronisation is one byte more (R170). -/
theorem of_dropOne {n size : Nat} {s t : State} (h : Records n size (dropOne s) t) : Records (n + 1) size s t := by
  obtain ⟨⟨ds, fs, hds, hgroups, hend⟩, hread⟩ := h
  refine ⟨⟨s.rbuf.take 1 ++ ds, fs, ?_, ?_, hend⟩, hread⟩
  · have hone := List.length_take_le 1 s.rbuf
    rw [List.length_append]
    omega
  · simp [hgroups]

/-- A chunk of the read is one read more (R168). -/
theorem of_append {n size : Nat} {s t : State} {c : Bytes} (h : Records n 0 (rbufAppend c s) t)
    (hc : c.length ≤ size) : Records n size s t := by
  obtain ⟨hgroups, c', hc', hread⟩ := h
  refine ⟨hgroups, c ++ c', ?_, ?_⟩
  · rw [List.length_append]
    omega
  · rw [hread, rbufAppend_hist, List.append_assoc]

/-- The record does not speak of the environment and the draws. -/
theorem of_moved {n size : Nat} {s t : State} {e : Env} {draws : List Draw} {count : Nat}
    (h : Records n size (moved s e draws count) t) : Records n size s t := ⟨h.groups, h.rxAll⟩

theorem decodeAgain (s : State) : Records 1 0 s (decodeAgain s).state := by
  obtain ⟨m, k, -, e⟩ | ⟨r, -, e⟩ | ⟨-, e⟩ := decodeAgain_cases s <;> rw [e]
  · exact (deliver m k s).mono (Nat.zero_le 1) (Nat.le_refl 0)
  · exact (noMessage _ _).of_dropOne
  · exact (noMessage _ s).mono (Nat.zero_le 1) (Nat.le_refl 0)

/-- From step 2 on RECV reads one chunk and drops a byte only in the second DECODE (R167, R170). -/
theorem recvWait (s : State) : Records 1 3000 s (recvWait s).state := by
  obtain ⟨e, ds, n, h⟩ := recvWait_cases s
  have nothing (c : Cause) : Records 1 3000 s (Machine.noMessage c (moved s e ds n)).state :=
    (noMessage c _).of_moved.mono (Nat.zero_le 1) (Nat.zero_le 3000)
  obtain ⟨-, h⟩ | ⟨-, h | h | ⟨c, -, hc, h⟩⟩ := h <;> rw [h]
  · exact nothing _
  · exact nothing _
  · exact nothing _
  · exact ((decodeAgain _).of_append (hc.trans (readRequest_le s.cap s.rlen))).of_moved

/-- One RECV drops a byte at most in each of its two DECODEs (R293). -/
theorem commandRecv (s : State) : Records 2 3000 s (commandRecv s).state := by
  obtain ⟨-, e⟩ | ⟨-, m, k, -, e⟩ | ⟨-, r, -, e⟩ | ⟨-, -, e⟩ := commandRecv_cases s <;> rw [e]
  · exact (noMessage _ s).mono (Nat.zero_le 2) (Nat.zero_le 3000)
  · exact (deliver m k s).mono (Nat.zero_le 2) (Nat.zero_le 3000)
  · exact (recvWait (dropOne s)).of_dropOne
  · exact (recvWait s).mono (Nat.le_succ 1) (Nat.le_refl 3000)

end Records

/-! ## Counting the groups -/

theorem filter_frames_length_le {p : Group → Bool} (hp : ∀ b, p (.dropped b) = false) (ds : Bytes) (fs : List Group) :
    ((ds.map Group.dropped ++ fs).filter p).length ≤ fs.length := by
  have hnone : (ds.map Group.dropped).filter p = [] := by simp [List.filter_eq_nil_iff, hp]
  rw [List.filter_append, hnone]
  exact List.length_filter_le p fs

theorem filter_dropped_length_le {p : Group → Bool} (hp : ∀ bytes m, p (.frame bytes m) = false) (ds : Bytes)
    {fs : List Group} {t : State} (h : Delivers fs t) : ((ds.map Group.dropped ++ fs).filter p).length ≤ ds.length := by
  have hnone : fs.filter p = [] := by
    obtain ⟨rfl, -⟩ | ⟨bytes, rfl, -⟩ := h
    · rfl
    · simp [hp]
  rw [List.filter_append, hnone, List.append_nil]
  exact (List.length_filter_le p _).trans_eq (List.length_map _)

/-- `STATUS` tells whether the RECV delivered the message in `RXMSG` (R173). -/
theorem Delivers.status_iff {fs : List Group} {t : State} (h : Delivers fs t) (ds : Bytes) :
    t.status = 0 ↔ ∃ bytes, .frame bytes t.rxmsg ∈ ds.map .dropped ++ fs := by
  obtain ⟨rfl, hs⟩ | ⟨bytes, rfl, hs⟩ := h
  · simp [hs]
  · exact ⟨fun _ => ⟨bytes, by simp⟩, fun _ => hs⟩

/-! ## The frame one SEND writes -/

theorem encodeMessage_length_ge {m : Message} (h : m.encodable = true) : 3 ≤ (encodeMessage m).length :=
  (decodeFrame_complete_consumed (decodeFrame_encodeMessage h)).1

/-- One SEND puts the first bytes of one whole frame on the wire; a SEND that refuses puts none (R141, R142, R293). -/
theorem commandSend_wire_prefix (s : State) :
    ∃ f c : Bytes, 3 ≤ f.length ∧ f.length ≤ 12 ∧ c <+: f ∧
      (commandSend s).state.env.wireTx = s.env.wireTx ++ c ∧ (c = [] ∨ f = encodeMessage s.txmsg) := by
  by_cases hm : s.txmsg.encodable = true
  · obtain ⟨k, hk⟩ := commandSend_wireTx s
    exact ⟨_, _, encodeMessage_length_ge hm, encodeMessage_length_le hm, List.take_prefix k _, hk, .inr rfl⟩
  · obtain ⟨c, e⟩ := commandSend_refused (s := s) (.inr (Bool.eq_false_iff.mpr hm))
    refine ⟨encodeFrame (remoteMessage 0), [], by decide, by decide, List.nil_prefix, ?_, .inl rfl⟩
    rw [e]
    exact (List.append_nil _).symm

/-- Settles O34: RECV accounts for its bytes (O53), and the groups and the bytes it records are those of `Records`. -/
theorem throughputBounds : Obligations.ThroughputBounds := by
  refine ⟨fun s t h => ?_, fun s t h => ?_⟩
  · obtain ⟨-, rfl⟩ := exec_instr_next (c := .recv) h
    obtain ⟨-, gs, c, hgroups, hread, hbuf, -⟩ := Accounted.commandRecv s
    obtain ⟨⟨ds, fs, hds, hrecorded, hend⟩, c', hc, hread'⟩ := Records.commandRecv s
    have hgs : gs = ds.map .dropped ++ fs := List.append_cancel_left (hgroups.symm.trans hrecorded)
    have hcc : c = c' := List.append_cancel_left (hread.symm.trans hread')
    subst hgs hcc
    exact ⟨_, c, hgroups, hread, hc, (filter_frames_length_le (fun _ => rfl) ds fs).trans hend.length_le,
      (filter_dropped_length_le (fun _ _ => rfl) ds hend).trans hds, hbuf, hend.status_iff ds⟩
  · obtain ⟨-, rfl⟩ := exec_instr_next (c := .send) h
    exact commandSend_wire_prefix s

end Sys2Proof.Machine
